-- ==== Sys2Proof/Word.lean ====
section
/-! DEFINITION. Word types of the Sabrig 2410: bytes, 16- and 32-bit fields, 40-bit byte addresses (00, Conventions). -/

namespace Sys2Proof

/-- One byte on any link. -/
abbrev Byte := BitVec 8

/-- A two-byte field of a message, block or record. -/
abbrev Half := BitVec 16

/-- A four-byte field: timebase, sequence, boundary counter, blank word. -/
abbrev Word := BitVec 32

/-- A memory address: "All memory addresses are 40-bit byte addresses" (00, Conventions). -/
abbrev Addr := BitVec 40

end Sys2Proof
end

