-- ==== Sys2Proof/Syntax.lean ====
section
/-! DEFINITION. The forty commands of spec/opcode_table.json, one constructor a row, and the packets they carry. -/

namespace Sys2Proof

/-- The kind of a memory request (01, Link packets). -/
inductive AccessKind
  | read
  | write
deriving DecidableEq, Repr

/-- One byte of a WRITE packet with its enable. -/
structure DataByte where
  value   : Byte
  enabled : Bool
deriving DecidableEq, Repr

/-- An upstream request packet (01, Link packets; R2). The length is kept as the packet states it, since a length of 0
or above 256 is accepted and answered REFUSED. The upstream tag is the requester's own and is not interpreted. -/
structure UpRequest where
  source : BitVec 6
  kind   : AccessKind
  addr   : Addr
  len    : Nat
  tag    : Nat
  bytes  : List DataByte
deriving DecidableEq, Repr

/-- The code of a downstream response (01, Link packets). -/
inductive DownCode
  | okay
  | error
deriving DecidableEq, Repr

/-- Requests whose acceptance is taken between the two events of one boundary (R130): after the latch and before the flip, or
after the flip and before the latch. They are offered one after another; the spec sets no bound on how many (log 16). -/
structure Between where
  latchFirst : Bool
  requests   : List UpRequest
deriving DecidableEq, Repr

/-- The commands. A control message carries its parameter bytes as they are sent, so that a message of the wrong length
is a command too (R176, test 3). BREAK carries the bits of CDI that were sampled before CSEL rose (R174), CUT how many bits of
the response were clocked before it (R175), and HARD_RESET the level of CSEL when RESETN is released (R169, R187), low where none
is given, as at State.reset (log 6). -/
inductive Instr
  | upstreamRequest (r : UpRequest)
  | grant
  | downstreamResponse (tag : Fin 32) (code : DownCode) (data : List Byte)
  | tagTimeout (tag : Fin 32)
  | boundary (pipe : Fin 4) (between : Option Between)
  | holdLimitExpiry (surface : Fin 8)
  | ident (params : List Byte)
  | status (params : List Byte)
  | defineSurface (params : List Byte)
  | readSurface (params : List Byte)
  | attach (params : List Byte)
  | detach (params : List Byte)
  | erase (params : List Byte)
  | setOrient (params : List Byte)
  | setWindow (params : List Byte)
  | setScroll (params : List Byte)
  | setVisible (params : List Byte)
  | setPolicy (params : List Byte)
  | close (params : List Byte)
  | discardFilling (params : List Byte)
  | discardReady (params : List Byte)
  | bindPipe (params : List Byte)
  | loadExpand (params : List Byte)
  | loadPalette (params : List Byte)
  | setTimeout (params : List Byte)
  | readEvents (params : List Byte)
  | setAttention (params : List Byte)
  | reset (params : List Byte)
  | unknownCodeMessage (code : Byte) (params : List Byte)
  | lengthAbove80 (code : Byte) (length : Byte)
  | linkPause
  | linkResume
  | linkHoldLimit
  | breakLink (bits : List Bool)
  | cut (bits : Nat)
  | hardReset (cselHigh : Bool := false)
  | messageByteTaken (b : Byte)
  | badCheckMessage (code : Byte) (params : List Byte) (check : Byte)
  | responseClockedOut
  | cselReleasedIdle
deriving DecidableEq, Repr

end Sys2Proof
end

