-- ==== Sys2Proof/Decode.lean ====
section
/-! DEFINITION. The command that a word spells by the bits of the opcode table: no row of the table gives bits. -/

namespace Sys2Proof

/-- None of the forty rows gives bits, so no word spells a command (spec/opcode_table.json). -/
def decodeTableWord (_nbits _w : Nat) : Option Instr := none

end Sys2Proof
end

