-- ==== Sys2Proof/Config.lean ====
section
/-! DEFINITION. The free values: what the spec leaves open and no proof may know. Constants without a body. -/

namespace Sys2Proof

/-- DESIGN CHOICE (log 4). The order in which one boundary reaches several surfaces, and in which a soft reset
detaches them: "the part gives them no order among themselves" (R114). The argument is a fresh counter value; the
number is read as a choice of permutation by `Machine.pickOrder`. -/
opaque Config.surfaceOrder : Nat → Nat

/-- DESIGN CHOICE (log 10). A byte that a downstream READ answered OKAY should carry and does not: the spec says an
answer carries length bytes and states no value for a missing one. The argument is a fresh counter value. -/
opaque Config.shortReadByte : Nat → Byte

/-- DESIGN CHOICE (log 28). The level of CDO in RESPONDING before the first bit of the response has been presented: the part
drives CDO then (R169), and the spec states no level. The argument is the free-value counter raised by the number of responses
that have left. -/
opaque Config.cdoBeforeFirstBit : Nat → Bool

end Sys2Proof
end

