-- ==== Sys2Proof/Machine/State.lean ====
section
/-! DEFINITION. The state of the Sabrig 2410 as plain data: every piece of state the chapters give the part, the queue of
waiting commands, and the part's outputs as traces. Reset values are the hard reset values (R20, R40, R73, R111, R112,
R153, R167, R187, R194). -/

namespace Sys2Proof.Machine

/-! ## Why a step can stop -/

/-- No command of the table faults: ERROR answers, timeouts and refusals of requests are results, flags and event records
of the running part (R18, R160, R162), so the type has no constructor (safe: nothing stops where the part goes on). -/
inductive Fault
deriving DecidableEq, Repr

/-- The refusals. -/
inductive Refusal
  /-- Raised by `exec` alone, for a row of the table that has no meaning yet; safe, since nothing is claimed of it. -/
  | notModelled (mnemonic : String)
deriving DecidableEq, Repr

/-! ## Control link (chapter 10) -/

/-- R182, byte 0. -/
inductive DeviceState
  | running
  | resetting
deriving DecidableEq, Repr

/-- R172. -/
inductive LinkState
  | idle
  | receiving
  | paused
  | responding
deriving DecidableEq, Repr

/-- R183. -/
inductive LinkError
  | none
  | brk
  | holdLimit
  | cut
deriving DecidableEq, Repr

/-- The control link interface (R169 to R175, R183). `bitCount` bits of the byte in progress have been sampled, and `shift` holds
them, the last one lowest. `cselHigh` is the level of the CSEL input; `waitHigh` says that the link samples nothing until CSEL
has been high. `respPos` bits of the response have been presented and clocked. -/
structure Link where
  state      : LinkState
  asm        : List Byte
  bitCount   : BitVec 3
  shift      : Byte
  cselHigh   : Bool
  waitHigh   : Bool
  pauseStart : Word
  lastError  : LinkError
  response   : List Byte
  respPos    : Nat
deriving DecidableEq, Repr

/-- R187, with CSEL low when RESETN is released (DESIGN CHOICE, log 6). -/
def Link.reset : Link :=
  { state := .idle, asm := [], bitCount := 0, shift := 0, cselHigh := false, waitHigh := true, pauseStart := 0,
    lastError := .none, response := [], respPos := 0 }

/-- What left on CDO: the bytes of a response and how many of its bits were presented (all of them, or fewer when it was
cut, R175). -/
structure CdoTransfer where
  bytes : List Byte
  bits  : Nat
deriving DecidableEq, Repr

/-- The commands of the control link (R179). -/
inductive Command
  | ident | status | defineSurface | readSurface | attach | detach | erase
  | setOrient | setWindow | setScroll | setVisible | setPolicy
  | close | discard | bindPipe | loadExpand | loadPalette
  | setTimeout | readEvents | setAttention | reset
deriving DecidableEq, Repr

/-- R178. -/
inductive Status
  | ok | accepted | busy | badState | badValue | conflict | noFrame | badCheck | badLength | unknown
deriving DecidableEq, Repr

/-- A response before framing: its status and its data bytes (R177). -/
structure Reply where
  status : Status
  data   : List Byte
deriving DecidableEq, Repr

/-! ## Event queue (chapter 11) -/

/-- R188. -/
inductive EventKind
  | frameReady | flip | frameSkipped | frameDropped | holdExpired | carryLost | writeFault
  | readFault | copyFault | tagTimeout | lateResponse | detached | resetDone | overflow
deriving DecidableEq, Repr

/-- One record of the event queue, its fields at the widths of R188. -/
structure EventRecord where
  kind    : EventKind
  surface : Byte
  pipe    : Byte
  buffer  : Byte
  seq     : Word
  detail  : Half
  stamp   : Word
deriving DecidableEq, Repr

/-! ## Surfaces (chapter 2) -/

/-- R25 and the lifecycle table of chapter 2. -/
inductive Lifecycle
  | empty
  | defined
  | attached
  | detaching
deriving DecidableEq, Repr

/-- The descriptor as DEFINE_SURFACE gives it: each field of the parameter block at its width (R22, R24). Values out of
range are held as given. -/
structure Descriptor where
  mode       : Byte
  pipe       : Byte
  format     : Byte
  palette    : Byte
  extra      : Byte
  width      : Half
  height     : Half
  pitch      : Half
  blank      : Word
  count      : Byte
  orient     : Byte
  apBase     : Addr
  base0      : Addr
  base1      : Addr
  base2      : Addr
  base3      : Addr
  bandTop    : Half
  bandRows   : Half
  scroll     : Half
  visTop     : Half
  visBottom  : Half
  xs         : Half
  xe         : Half
  ys         : Half
  ye         : Half
  order      : Byte
  present    : Byte
  minShow    : Byte
  flags      : Byte
  holdLimit  : Byte
deriving DecidableEq, Repr

/-- The block of an EMPTY surface, which holds no descriptor (log 8). -/
def Descriptor.zero : Descriptor :=
  { mode := 0, pipe := 0, format := 0, palette := 0, extra := 0, width := 0, height := 0, pitch := 0, blank := 0,
    count := 0, orient := 0, apBase := 0, base0 := 0, base1 := 0, base2 := 0, base3 := 0, bandTop := 0,
    bandRows := 0, scroll := 0, visTop := 0, visBottom := 0, xs := 0, xe := 0, ys := 0, ye := 0, order := 0,
    present := 0, minShow := 0, flags := 0, holdLimit := 0 }

/-- The four producer formats (R56 to R59). -/
inductive Format
  | f8 | f16 | f24 | f32
deriving DecidableEq, Repr

/-- A set of stripe numbers, kept as a strictly rising list so that equal sets are equal data (R51, R98). -/
abbrev StripeSet := List Nat

/-! ## Rotation controller (chapter 6) -/

/-- R88. -/
inductive BufState
  | free | filling | closing | ready | shown | draining
deriving DecidableEq, Repr

/-- A buffer record (R85, R86). `content` is the content sequence, 0 written NONE. -/
structure BufRec where
  index      : Nat
  base       : Addr
  st         : BufState
  content    : Nat
  written    : StripeSet
  touched    : Bool
  damaged    : Bool
  prodWrites : Nat
  prodReads  : Nat
  merges     : Nat
  scanReads  : Nat
  copyReads  : Nat
  copyWrites : Nat
  hold       : Bool
  age        : Nat
deriving DecidableEq, Repr

/-- A buffer record as ATTACH makes it (R31). -/
def BufRec.fresh (index : Nat) (base : Addr) : BufRec :=
  { index := index, base := base, st := .free, content := 0, written := [], touched := false, damaged := false,
    prodWrites := 0, prodReads := 0, merges := 0, scanReads := 0, copyReads := 0, copyWrites := 0, hold := false,
    age := 0 }

/-- One closed frame of the frame history (R98). -/
structure HistoryEntry where
  seq     : Nat
  stripes : StripeSet
deriving DecidableEq, Repr

/-! ## Placement and conversion (chapters 3, 4, 5) -/

/-- The three orientation flags (R22). -/
structure Orient where
  exchange : Bool
  mirrorX  : Bool
  mirrorY  : Bool
deriving DecidableEq, Repr

/-- The STREAM part of the fill latch (R74). -/
structure StreamLatch where
  xs : Nat
  xe : Nat
  ys : Nat
  ye : Nat
  columnFirst : Bool
  cx : Nat
  cy : Nat
deriving DecidableEq, Repr

/-- The fill latch (R41). -/
structure FillLatch where
  orient : Orient
  lw     : Nat
  lh     : Nat
  stream : Option StreamLatch
deriving DecidableEq, Repr

/-- Which pixel: the pixel index in DIRECT mode, the cursor position in STREAM mode (R64). -/
inductive PixelRef
  | index (i : Nat)
  | pos (x y : Nat)
deriving DecidableEq, Repr

/-- A holding assembly slot (R64): one entry of `bytes` per byte of the pixel, `none` where no byte is held. -/
structure Slot where
  px     : PixelRef
  buf    : Nat
  addr   : Nat
  bytes  : List (Option Byte)
deriving DecidableEq, Repr

/-- R67, R68. -/
inductive MergeState
  | waiting | reading | writing
deriving DecidableEq, Repr

/-- A merge (R67). `formed` is the stored pixel of the write once the read has completed OKAY (R68); `noWrite` marks a
merge that makes no write when its read ends (R71); `presented` is the moment its claim was presented (R157). -/
structure Merge where
  id        : Nat
  buf       : Nat
  addr      : Nat
  bytes     : List (Option Byte)
  st        : MergeState
  noWrite   : Bool
  formed    : Option (List Byte)
  presented : Option Nat
deriving DecidableEq, Repr

/-- A covered pixel of a lane head with its stored position (R46): the bytes that are in the span and enabled. -/
structure PixelMap where
  px     : PixelRef
  addr   : Nat
  stripe : Nat
  bytes  : List (Option Byte)
deriving DecidableEq, Repr

/-- A placed pixel (R47), with its producer bytes for a WRITE. -/
structure Placed where
  px     : PixelRef
  addr   : Nat
  stripe : Nat
  bytes  : List Byte
deriving DecidableEq, Repr

/-- A run of placed pixels: one downstream part (R48). -/
abbrev Run := List Placed

/-- The computed mapping of a STREAM head (R79). -/
structure StreamPlan where
  runs      : List Run
  slotAfter : Option Slot
  cx        : Nat
  cy        : Nat
  wraps     : Bool
  overrun   : Nat
deriving DecidableEq, Repr

/-- The walk of a STREAM head's bytes through pixels and cursor while its mapping is computed (R76 to R79). -/
structure StreamWalk where
  cx      : Nat
  cy      : Nat
  held    : List Byte
  placed  : List Placed
  wrapped : Bool
  overrun : Nat
deriving DecidableEq, Repr

/-- What a mapping does with the request's bytes in either mode. -/
inductive Plan
  | direct (pixels : List PixelMap)
  | stream (plan : StreamPlan)
deriving DecidableEq, Repr

/-- A mapped head: its buffer, the stripes it touches in pixel order, and its plan (R46, R50, R79). -/
structure Mapping where
  buf     : Nat
  stripes : List Nat
  plan    : Plan
deriving DecidableEq, Repr

/-- A bound head (R89): the buffer, whether a part has been issued, the pixels not handled yet, and the formed parts. -/
structure Binding where
  buf    : Nat
  issued : Bool
  todo   : List PixelMap
  parts  : List Run
deriving DecidableEq, Repr

/-- What one go of the converter over a bound head's pixels leaves (R65, R66): the slot, the pixel it spilled if any, the
part it formed if any, and the pixels it has not handled. -/
structure Handled where
  slot    : Option Slot
  spilled : Option Slot
  part    : Option Run
  todo    : List PixelMap
deriving DecidableEq, Repr

/-- What the lane head has done so far (R13, R89, R93). -/
inductive HeadPhase
  | fresh
  | waiting
  | mapped (m : Mapping)
  | bound (b : Binding)
deriving DecidableEq, Repr

/-- A producer request in a lane, named by its acceptance number (R12). -/
structure LaneReq where
  id  : Nat
  req : UpRequest
deriving DecidableEq, Repr

/-! ## Copy engine (chapter 8) -/

/-- R137. -/
inductive StripeState
  | pending | copying | done
deriving DecidableEq, Repr

/-- One stripe of a copy job: its state, its chunks open and its fault mark (R135). -/
structure StripeRec where
  stripe : Nat
  st     : StripeState
  chunks : Nat
  fault  : Bool
deriving DecidableEq, Repr

/-- A copy job (R135). Its place is the list that holds it: the copy queue, or the surface's deferred list. -/
structure CopyJob where
  surface : Fin 8
  source  : Nat
  target  : Nat
  stripes : List StripeRec
deriving DecidableEq, Repr

/-- The engine's current stripe with the chunk position (R135, R139). -/
structure CurrentStripe where
  surface : Fin 8
  target  : Nat
  stripe  : Nat
  row     : Nat
  off     : Nat
deriving DecidableEq, Repr

/-- R142; `waiting` is a chunk waiting for its read tag, which has a slot and no phase yet. -/
inductive ChunkPhase
  | waiting | reading | holding | writing
deriving DecidableEq, Repr

/-- A chunk in one of the four slots (R142); `orphan` once its job was cancelled (R148). -/
structure Chunk where
  id      : Nat
  surface : Fin 8
  source  : Nat
  target  : Nat
  stripe  : Nat
  srcAddr : Nat
  tgtAddr : Nat
  len     : Nat
  phase   : ChunkPhase
  data    : List Byte
  orphan  : Bool
deriving DecidableEq, Repr

/-- The copy engine (R136, R139, R142). The slots in use are a list in start order, at most four. -/
structure CopyEngine where
  queue     : List CopyJob
  current   : Option CurrentStripe
  slots     : List Chunk
  nextChunk : Nat
deriving DecidableEq, Repr

/-! ## One surface -/

/-- Everything the blocks hold for one surface. `holdReached` is the MODEL's own (log 14): the hold limit was found reached when
the counter was incremented, and its expiry is still to be taken. -/
structure Surface where
  life         : Lifecycle
  desc         : Descriptor
  bufs         : List BufRec
  present      : List Nat
  closing      : List Nat
  frameCounter : Nat
  history      : List HistoryEntry
  holdWait     : Nat
  holdReached  : Bool
  closePending : Bool
  latch        : Option FillLatch
  slot         : Option Slot
  merges       : List Merge
  lane         : List LaneReq
  head         : HeadPhase
  deferred     : List CopyJob
  scrollActive  : Nat
  scrollPending : Nat
  topActive     : Nat
  topPending    : Nat
  bottomActive  : Nat
  bottomPending : Nat
deriving DecidableEq, Repr

/-- An EMPTY surface, as after hard reset (R34, R40). -/
def Surface.empty : Surface :=
  { life := .empty, desc := Descriptor.zero, bufs := [], present := [], closing := [], frameCounter := 0, history := [],
    holdWait := 0, holdReached := false, closePending := false, latch := none, slot := none, merges := [], lane := [],
    head := .fresh, deferred := [], scrollActive := 0, scrollPending := 0, topActive := 0, topPending := 0, bottomActive := 0,
    bottomPending := 0 }

/-! ## Request intake (chapter 1) -/

/-- The codes of an upstream response (R3). -/
inductive UpCode
  | okay | retry | refused | fault | timeout | aborted
deriving DecidableEq, Repr

/-- An upstream response packet (01, Link packets). -/
structure UpResponse where
  tag  : Nat
  code : UpCode
  data : List Byte
deriving DecidableEq, Repr

/-- The worst result a response record has taken, from best to worst (R18). -/
inductive Worst
  | okay | aborted | timeout | fault
deriving DecidableEq, Repr

/-- A response record (R17), named by the acceptance number of its request. -/
structure RespRecord where
  id     : Nat
  tag    : Nat
  kind   : AccessKind
  issued : Nat
  mark   : Bool
  worst  : Worst
  data   : List Byte
deriving DecidableEq, Repr

/-- A part of a queued request that has not been issued: its address, its length and its place in the data area. -/
structure Part where
  addr : Nat
  len  : Nat
  pos  : Nat
deriving DecidableEq, Repr

/-- An entry of the pass-through queue with its parts not issued yet (R10). -/
structure PassEntry where
  id      : Nat
  req     : UpRequest
  parts   : List Part
  started : Bool
deriving DecidableEq, Repr

/-- An entry of the scanout queue with its parts not issued yet (R11, R125). -/
structure ScanEntry where
  id      : Nat
  source  : BitVec 6
  surface : Fin 8
  target  : Option Nat
  parts   : List Part
  started : Bool
deriving DecidableEq, Repr

/-- The class of an upstream request (R2, R7). -/
inductive RequestClass
  | malformed
  | passThrough
  | scanout (i : Fin 8)
  | refused
  | producer (i : Fin 8)
deriving DecidableEq, Repr

/-- The request path, the surfaces, the copy engine and the event queue: the blocks that act on one another at once. -/
structure Fabric where
  offered   : List UpRequest
  passQ     : List PassEntry
  scanQ     : List ScanEntry
  records   : List RespRecord
  nextId    : Nat
  sent      : List UpResponse
  surfaces  : Vector Surface 8
  copy      : CopyEngine
  nextMerge : Nat
  nextStamp : Nat
  events    : List EventRecord
deriving DecidableEq, Repr

/-- The fabric after hard reset. -/
def Fabric.reset : Fabric :=
  { offered := [], passQ := [], scanQ := [], records := [], nextId := 0, sent := [],
    surfaces := Vector.replicate 8 Surface.empty,
    copy := { queue := [], current := none, slots := [], nextChunk := 0 },
    nextMerge := 0, nextStamp := 0, events := [] }

/-! ## Tag unit (chapter 9) -/

/-- R154. -/
inductive TagState
  | free | issued | quarantined
deriving DecidableEq, Repr

/-- R155. -/
inductive OwnerKind
  | pass | producerWrite | producerRead | scanoutRead | mergeRead | mergeWrite | copyRead | copyWrite
deriving DecidableEq, Repr

/-- The MODEL's own field of a tag entry (log 9): where in its owner the answer goes. -/
inductive Route
  | nowhere
  | bytes (pos len : Nat)
  | pixels (refs : List PixelRef) (first : Nat)
  | merge (id : Nat)
  | chunk (id : Nat)
deriving DecidableEq, Repr

/-- A tag table entry (R154). -/
structure TagEntry where
  st        : TagState
  kind      : OwnerKind
  upRef     : Option Nat
  surface   : Option (Fin 8)
  buffer    : Option Nat
  pipe      : Option Nat
  stripe    : Option Nat
  issueTime : Word
  route     : Route
deriving DecidableEq, Repr

/-- A cleared FREE entry (R167). -/
def TagEntry.cleared : TagEntry :=
  { st := .free, kind := .pass, upRef := none, surface := none, buffer := none, pipe := none, stripe := none,
    issueTime := 0, route := .nowhere }

/-- What a claim asks to be issued (R4, R156): the fields of the tag entry and of the downstream request. -/
structure Access where
  kind    : OwnerKind
  upRef   : Option Nat
  surface : Option (Fin 8)
  buffer  : Option Nat
  stripe  : Option Nat
  route   : Route
  source  : BitVec 6
  down    : AccessKind
  addr    : Nat
  len     : Nat
  bytes   : List DataByte
deriving DecidableEq, Repr

/-- A waiting claim (R156). -/
inductive Claim
  | scanout
  | merge (i : Fin 8)
  | copy
  | pass
  | lane (i : Fin 8)
deriving DecidableEq, Repr

/-- How an access ends: answered OKAY with its data, answered ERROR, or expired (R5, R162). -/
inductive AccessEnd
  | okay (data : List Byte)
  | error
  | timeout
deriving DecidableEq, Repr

/-- A downstream request as it leaves on the link (R4, R158). -/
structure DownRequest where
  source : BitVec 6
  kind   : AccessKind
  addr   : Addr
  len    : Nat
  tag    : Fin 32
  bytes  : List DataByte
deriving DecidableEq, Repr

/-! ## Pipe table and conversion tables -/

/-- A pipe table entry (R112). -/
structure Pipe where
  source  : BitVec 6
  enabled : Bool
  counter : Word
deriving DecidableEq, Repr

/-- A palette entry (R60). -/
structure PaletteEntry where
  blue  : Byte
  green : Byte
  red   : Byte
deriving DecidableEq, Repr

/-- The five tables of the converter (R60). -/
structure Tables where
  red   : Vector Byte 32
  green : Vector Byte 64
  blue  : Vector Byte 32
  palA  : Vector PaletteEntry 256
  palB  : Vector PaletteEntry 256
deriving DecidableEq, Repr

/-- The default tables (R60): a hard reset sets them. -/
def Tables.reset : Tables :=
  { red   := Vector.ofFn fun v : Fin 32 => BitVec.ofNat 8 (v.val * 8 + v.val / 4)
    green := Vector.ofFn fun v : Fin 64 => BitVec.ofNat 8 (v.val * 4 + v.val / 16)
    blue  := Vector.ofFn fun v : Fin 32 => BitVec.ofNat 8 (v.val * 8 + v.val / 4)
    palA  := Vector.ofFn fun i : Fin 256 =>
      { blue := BitVec.ofNat 8 i.val, green := BitVec.ofNat 8 i.val, red := BitVec.ofNat 8 i.val }
    palB  := Vector.ofFn fun i : Fin 256 =>
      { blue := BitVec.ofNat 8 i.val, green := BitVec.ofNat 8 i.val, red := BitVec.ofNat 8 i.val } }

/-- What the blocks of the fabric read of the rest of the part while an event is taken: the timebase value, whether the
device is RUNNING, and the pipe table (the MODEL's own bundle, no state of its own). -/
structure Env where
  now     : Word
  running : Bool
  pipes   : Vector Pipe 4
deriving DecidableEq, Repr

/-! ## The part -/

/-- The whole state. `sent` (in the fabric), `issued` and `cdo` are the outputs as traces; `freeCount` makes each free
value a fresh one; `pending` is the queue of commands that wait, first in, first out. -/
structure State where
  device    : DeviceState
  timebase  : Word
  fab       : Fabric
  tags      : Vector TagEntry 32
  limit     : Byte
  issued    : List DownRequest
  pipes     : Vector Pipe 4
  tables    : Tables
  link      : Link
  mask      : Half
  cdo       : List CdoTransfer
  freeCount : Nat
  pending   : List Instr
deriving DecidableEq, Repr

/-- The part right after hard reset (R20, R40, R73, R111, R112, R153, R161, R167, R187, R189, R192, R194). -/
def State.reset : State :=
  { device := .running, timebase := 0, fab := Fabric.reset,
    tags := Vector.replicate 32 TagEntry.cleared, limit := 16, issued := [],
    pipes := Vector.replicate 4 { source := 0, enabled := false, counter := 0 },
    tables := Tables.reset, link := Link.reset, mask := 0x3FFC, cdo := [], freeCount := 0, pending := [] }

end Sys2Proof.Machine
end

