-- ==== Sys2Proof/Machine/Operands.lean ====
section
/-! DEFINITION. Operand forms: bytes and little-endian fields of messages and blocks, the descriptor parameter block (R24),
the values derived from a descriptor (R23), the command catalogue with its lengths (R179), and message framing (R170,
R177). -/

namespace Sys2Proof.Machine

/-! ## Bytes and little-endian fields (00, Addresses and byte order) -/

/-- The byte at a place; the lengths are tested before any byte is used. -/
def byteAt (l : List Byte) (k : Nat) : Byte := l.getD k 0

/-- A little-endian two-byte field. -/
def halfAt (l : List Byte) (k : Nat) : Half := byteAt l (k + 1) ++ byteAt l k

/-- A little-endian four-byte field. -/
def wordAt (l : List Byte) (k : Nat) : Word := halfAt l (k + 2) ++ halfAt l k

/-- A little-endian five-byte address. -/
def addrAt (l : List Byte) (k : Nat) : Addr := byteAt l (k + 4) ++ wordAt l k

/-- The bytes of a two-byte value, low byte first. -/
def halfBytes (v : Half) : List Byte := [v.extractLsb' 0 8, v.extractLsb' 8 8]

/-- The bytes of a four-byte value, low byte first. -/
def wordBytes (v : Word) : List Byte :=
  [v.extractLsb' 0 8, v.extractLsb' 8 8, v.extractLsb' 16 8, v.extractLsb' 24 8]

/-- The bytes of a 40-bit address, low byte first. -/
def addrBytes (v : Addr) : List Byte :=
  [v.extractLsb' 0 8, v.extractLsb' 8 8, v.extractLsb' 16 8, v.extractLsb' 24 8, v.extractLsb' 32 8]

/-- The 8-bit sum of a list of bytes (R170). -/
def byteSum (l : List Byte) : Byte := l.foldr (· + ·) 0

/-- The check byte that makes the 8-bit sum 0 (R170, R177). -/
def checkByte (l : List Byte) : Byte := 0 - byteSum l

/-! ## The descriptor parameter block (R24) -/

/-- The descriptor that a 66-byte block gives; byte 0 names the surface and is no field of the descriptor. -/
def Descriptor.ofBlock (p : List Byte) : Descriptor :=
  { mode := byteAt p 1, pipe := byteAt p 2, format := byteAt p 3, palette := byteAt p 4, extra := byteAt p 5,
    width := halfAt p 6, height := halfAt p 8, pitch := halfAt p 10, blank := wordAt p 12, count := byteAt p 16,
    orient := byteAt p 17, apBase := addrAt p 18, base0 := addrAt p 23, base1 := addrAt p 28, base2 := addrAt p 33,
    base3 := addrAt p 38, bandTop := halfAt p 43, bandRows := halfAt p 45, scroll := halfAt p 47,
    visTop := halfAt p 49, visBottom := halfAt p 51, xs := halfAt p 53, xe := halfAt p 55, ys := halfAt p 57,
    ye := halfAt p 59, order := byteAt p 61, present := byteAt p 62, minShow := byteAt p 63, flags := byteAt p 64,
    holdLimit := byteAt p 65 }

/-- The 66-byte block that READ_SURFACE returns for surface `i`. -/
def Descriptor.block (d : Descriptor) (i : Fin 8) : List Byte :=
  [BitVec.ofNat 8 i.val, d.mode, d.pipe, d.format, d.palette, d.extra] ++ halfBytes d.width ++ halfBytes d.height
    ++ halfBytes d.pitch ++ wordBytes d.blank ++ [d.count, d.orient] ++ addrBytes d.apBase ++ addrBytes d.base0
    ++ addrBytes d.base1 ++ addrBytes d.base2 ++ addrBytes d.base3 ++ halfBytes d.bandTop ++ halfBytes d.bandRows
    ++ halfBytes d.scroll ++ halfBytes d.visTop ++ halfBytes d.visBottom ++ halfBytes d.xs ++ halfBytes d.xe
    ++ halfBytes d.ys ++ halfBytes d.ye ++ [d.order, d.present, d.minShow, d.flags, d.holdLimit]

/-! ## Derived values (R22, R23) -/

/-- STREAM mode, coded 1. -/
def Descriptor.isStream (d : Descriptor) : Bool := d.mode == 1

/-- The width W. -/
def Descriptor.w (d : Descriptor) : Nat := d.width.toNat

/-- The height H. -/
def Descriptor.h (d : Descriptor) : Nat := d.height.toNat

/-- The pitch P in bytes: programmed in 64-byte units. -/
def Descriptor.pitchBytes (d : Descriptor) : Nat := d.pitch.toNat * 64

/-- The producer format by its coding (R24). -/
def Descriptor.fmt (d : Descriptor) : Format :=
  if d.format = 0 then .f8 else if d.format = 1 then .f16 else if d.format = 2 then .f24 else .f32

/-- Producer bytes per pixel. -/
def Format.bpp : Format → Nat
  | .f8 => 1
  | .f16 => 2
  | .f24 => 3
  | .f32 => 4

/-- Producer bytes per pixel of the surface. -/
def Descriptor.bpp (d : Descriptor) : Nat := d.fmt.bpp

/-- The orientation flags: bit 0 exchange, bit 1 mirror-X, bit 2 mirror-Y. -/
def orientOf (b : Byte) : Orient :=
  { exchange := b.getLsbD 0, mirrorX := b.getLsbD 1, mirrorY := b.getLsbD 2 }

/-- The logical width under an orientation. -/
def Descriptor.lwOf (d : Descriptor) (o : Orient) : Nat := if o.exchange then d.h else d.w

/-- The logical height under an orientation. -/
def Descriptor.lhOf (d : Descriptor) (o : Orient) : Nat := if o.exchange then d.w else d.h

/-- The bytes of a buffer region, P × H. -/
def Descriptor.regionSize (d : Descriptor) : Nat := d.pitchBytes * d.h

/-- The aperture size: P × H rounded up to a multiple of 4096. -/
def Descriptor.apSize (d : Descriptor) : Nat := (d.regionSize + 4095) / 4096 * 4096

/-- The aperture base as a number. -/
def Descriptor.apStart (d : Descriptor) : Nat := d.apBase.toNat

/-- The stripe height: H / 32 rounded up. -/
def Descriptor.stripeHeight (d : Descriptor) : Nat := (d.h + 31) / 32

/-- The number of stripes: H / sh rounded up. -/
def Descriptor.stripeCount (d : Descriptor) : Nat := (d.h + d.stripeHeight - 1) / d.stripeHeight

/-- The last stored row of a stripe, plus one. -/
def Descriptor.stripeEnd (d : Descriptor) (k : Nat) : Nat := min ((k + 1) * d.stripeHeight) d.h

/-- The buffer base at an index. -/
def Descriptor.baseOf (d : Descriptor) (k : Nat) : Addr :=
  if k = 0 then d.base0 else if k = 1 then d.base1 else if k = 2 then d.base2 else d.base3

/-- Present policy LATEST, coded 1. -/
def Descriptor.latest (d : Descriptor) : Bool := d.present == 1

/-- Exhaustion policy RECLAIM, bit 0 of the policy flags. -/
def Descriptor.reclaim (d : Descriptor) : Bool := d.flags.getLsbD 0

/-- Close on boundary, bit 1 of the policy flags. -/
def Descriptor.closeOnBoundary (d : Descriptor) : Bool := d.flags.getLsbD 1

/-- Carry-forward, bit 2 of the policy flags. -/
def Descriptor.carryForward (d : Descriptor) : Bool := d.flags.getLsbD 2

/-- The pipe that the descriptor names, as an index of the pipe table (in range once ATTACH check 1 has passed). -/
def Descriptor.pipeIndex (d : Descriptor) : Fin 4 := Fin.ofNat 4 d.pipe.toNat

/-- The byte of the blank word for the byte at `b` in its row (R127). -/
def Descriptor.blankByte (d : Descriptor) (b : Nat) : Byte := byteAt (wordBytes d.blank) (b % 4)

/-! ## The command catalogue (R179) -/

/-- The code of a command. -/
def Command.code : Command → Byte
  | .ident => 0x01
  | .status => 0x02
  | .defineSurface => 0x10
  | .readSurface => 0x11
  | .attach => 0x12
  | .detach => 0x13
  | .erase => 0x14
  | .setOrient => 0x20
  | .setWindow => 0x21
  | .setScroll => 0x22
  | .setVisible => 0x23
  | .setPolicy => 0x24
  | .close => 0x30
  | .discard => 0x31
  | .bindPipe => 0x40
  | .loadExpand => 0x50
  | .loadPalette => 0x51
  | .setTimeout => 0x60
  | .readEvents => 0x70
  | .setAttention => 0x71
  | .reset => 0x7F

/-- Every command of the catalogue. -/
def allCommands : List Command :=
  [.ident, .status, .defineSurface, .readSurface, .attach, .detach, .erase, .setOrient, .setWindow, .setScroll,
   .setVisible, .setPolicy, .close, .discard, .bindPipe, .loadExpand, .loadPalette, .setTimeout, .readEvents,
   .setAttention, .reset]

/-- The command that a code names, if any. -/
def commandOf (code : Byte) : Option Command := allCommands.find? (fun c => c.code == code)

/-- R176 test 3: the parameter length fits the command, and for LOAD_EXPAND and LOAD_PALETTE agrees with the count byte
(R61, R62). -/
def Command.lengthFits (c : Command) (params : List Byte) : Bool :=
  let n := params.length
  match c with
  | .ident | .status | .reset => n == 0
  | .defineSurface => n == 66
  | .readSurface | .attach | .detach | .erase | .close | .setTimeout | .readEvents => n == 1
  | .setOrient | .discard | .setAttention => n == 2
  | .setScroll | .bindPipe => n == 3
  | .setVisible | .setPolicy => n == 5
  | .setWindow => n == 10
  | .loadExpand => decide (4 ≤ n) && decide (n ≤ 67) && n == 3 + (byteAt params 2).toNat
  | .loadPalette => decide (6 ≤ n) && decide (n ≤ 75) && n == 3 + 3 * (byteAt params 2).toNat

/-! ## Framing (R170, R177) -/

/-- The bytes of a message before its check byte. -/
def messageBody (code : Byte) (params : List Byte) : List Byte :=
  code :: BitVec.ofNat 8 params.length :: params

/-- The status codes (R178). -/
def Status.code : Status → Byte
  | .ok => 0x00
  | .accepted => 0x01
  | .busy => 0x02
  | .badState => 0x03
  | .badValue => 0x04
  | .conflict => 0x05
  | .noFrame => 0x06
  | .badCheck => 0x07
  | .badLength => 0x08
  | .unknown => 0x09

/-- A response: status byte, length byte, data bytes, check byte (R177). -/
def Reply.frame (r : Reply) : List Byte :=
  let body := r.status.code :: BitVec.ofNat 8 r.data.length :: r.data
  body ++ [checkByte body]

/-- A response with no data. -/
def Reply.plain (s : Status) : Reply := { status := s, data := [] }

/-- The surface number of a command that names one: byte 0, in 0 to 7 (R25 test 1). -/
def surfaceNumber (params : List Byte) : Option (Fin 8) :=
  if h : (byteAt params 0).toNat < 8 then some ⟨(byteAt params 0).toNat, h⟩ else none

end Sys2Proof.Machine
end

