-- ==== Sys2Proof/Machine/Flags.lean ====
section
/-! DEFINITION. Flags and codes: the ATTN level (R193), the byte codes of states and errors (R27, R182), and the layout
of an event record (R188). -/

namespace Sys2Proof.Machine

/-- The kind codes of R188; each is the number of the kind's bit in the attention mask (R192). -/
def EventKind.code : EventKind → Nat
  | .frameReady => 0
  | .flip => 1
  | .frameSkipped => 2
  | .frameDropped => 3
  | .holdExpired => 4
  | .carryLost => 5
  | .writeFault => 6
  | .readFault => 7
  | .copyFault => 8
  | .tagTimeout => 9
  | .lateResponse => 10
  | .detached => 11
  | .resetDone => 12
  | .overflow => 13

/-- The 14 bytes of a record (R188). -/
def EventRecord.bytes (r : EventRecord) : List Byte :=
  [BitVec.ofNat 8 r.kind.code, r.surface, r.pipe, r.buffer] ++ wordBytes r.seq ++ halfBytes r.detail
    ++ wordBytes r.stamp

/-- Whether the attention mask enables a kind (R192). -/
def kindEnabled (mask : Half) (k : EventKind) : Bool := mask.getLsbD k.code

/-- ATTN is asserted low while the queue holds a record of an enabled kind (R193). -/
def attnLow (mask : Half) (events : List EventRecord) : Bool := events.any (fun r => kindEnabled mask r.kind)

/-- R182, byte 0. -/
def DeviceState.code : DeviceState → Byte
  | .running => 0
  | .resetting => 1

/-- R182, byte 1. -/
def LinkError.code : LinkError → Byte
  | .none => 0
  | .brk => 1
  | .holdLimit => 2
  | .cut => 3

/-- R27. -/
def Lifecycle.code : Lifecycle → Byte
  | .empty => 0
  | .defined => 1
  | .attached => 2
  | .detaching => 3

/-- Only ATTACHED and DETACHING surfaces have a live aperture (R7). -/
def Lifecycle.live : Lifecycle → Bool
  | .attached | .detaching => true
  | .empty | .defined => false

/-- How many tags stand in a state (R182, bytes 2 to 4). -/
def countTags (tags : Vector TagEntry 32) (p : TagEntry → Bool) : Nat := tags.toList.countP p

end Sys2Proof.Machine
end

