-- ==== Sys2Proof/Machine/Ops.lean ====
section
/-! DEFINITION. The named operations on the parts of State that every block uses: stripe sets, the event queue, response
records, surfaces and buffer records. -/

namespace Sys2Proof.Machine

/-! ## Stripe sets -/

/-- A stripe set with one stripe added. -/
def addStripe (k : Nat) : StripeSet → StripeSet
  | [] => [k]
  | x :: xs => if k < x then k :: x :: xs else if k = x then x :: xs else x :: addStripe k xs

/-- The union of a stripe set and a list of stripes. -/
def addStripes (ks : List Nat) (s : StripeSet) : StripeSet := ks.foldr addStripe s

/-- Reads a number as a permutation of a list (log 4): the number picks the first element, its quotient the next. -/
def pickOrder {α : Type} : Nat → Nat → List α → List α
  | 0, _, l => l
  | _ + 1, _, [] => []
  | _ + 1, _, [x] => [x]
  | fuel + 1, n, l =>
    match l[n % l.length]? with
    | some x => x :: pickOrder fuel (n / l.length) (l.eraseIdx (n % l.length))
    | none => l

/-! ## The event queue (R188 to R190) -/

/-- A surface, pipe or buffer number of a record, FFh for none. -/
def idByte : Option Nat → Byte
  | some n => BitVec.ofNat 8 n
  | none => 0xFF

/-- The OVERFLOW record that a first lost arrival creates: the timestamp is that of the lost arrival (R190). -/
def overflowRecord (stamp : Word) : EventRecord :=
  { kind := .overflow, surface := 0xFF, pipe := 0xFF, buffer := 0xFF, seq := 0, detail := 1, stamp := stamp }

/-- The OVERFLOW record's count is incremented, unless it stands at 65535 (R190). -/
def countLost : List EventRecord → List EventRecord
  | [] => []
  | r :: rs =>
    if r.kind = .overflow then
      (if r.detail = 0xFFFF then r else { r with detail := r.detail + 1 }) :: rs
    else r :: countLost rs

/-- Whether the queue holds an OVERFLOW record. -/
def holdsOverflow (q : List EventRecord) : Bool := q.any (fun r => decide (r.kind = .overflow))

/-- A record arrives for append (R190). -/
def appendEvent (q : List EventRecord) (r : EventRecord) : List EventRecord :=
  if q.length < 31 then q ++ [r]
  else if q.length = 31 then (if holdsOverflow q then q ++ [r] else q ++ [overflowRecord r.stamp])
  else countLost q

/-- A block appends a record: the timestamp is the timebase value (R189). -/
def Fabric.log (f : Fabric) (env : Env) (kind : EventKind) (surface pipe buffer : Option Nat) (seq detail : Nat) :
    Fabric :=
  let r : EventRecord :=
    { kind := kind, surface := idByte surface, pipe := idByte pipe, buffer := idByte buffer,
      seq := BitVec.ofNat 32 seq, detail := BitVec.ofNat 16 detail, stamp := env.now }
  { f with events := appendEvent f.events r }

/-! ## Surfaces and buffer records -/

/-- What the blocks hold for surface `i`. -/
def Fabric.surf (f : Fabric) (i : Fin 8) : Surface := f.surfaces.get i

/-- Surface `i` changed by `g`. -/
def Fabric.modSurf (f : Fabric) (i : Fin 8) (g : Surface → Surface) : Fabric :=
  { f with surfaces := f.surfaces.set i.val (g (f.surf i)) i.isLt }

/-- The eight surfaces in order. -/
def allSurfaces : List (Fin 8) := [0, 1, 2, 3, 4, 5, 6, 7]

/-- The record of a buffer. -/
def Surface.buf (su : Surface) (b : Nat) : BufRec := su.bufs.getD b (BufRec.fresh b 0)

/-- A buffer record changed by `g`. -/
def Surface.modBuf (su : Surface) (b : Nat) (g : BufRec → BufRec) : Surface :=
  { su with bufs := su.bufs.modify b g }

/-- A buffer record of surface `i` changed by `g`. -/
def Fabric.modBuf (f : Fabric) (i : Fin 8) (b : Nat) (g : BufRec → BufRec) : Fabric :=
  f.modSurf i (fun su => su.modBuf b g)

/-- The surface's FILLING buffer, at most one (R88). -/
def Surface.filling (su : Surface) : Option Nat := su.bufs.findIdx? (fun r => decide (r.st = .filling))

/-- The surface's SHOWN buffer, at most one (R88). -/
def Surface.shown (su : Surface) : Option Nat := su.bufs.findIdx? (fun r => decide (r.st = .shown))

/-- The buffers in a state, lowest index first. -/
def Surface.bufsIn (su : Surface) (st : BufState) : List Nat :=
  (List.range su.bufs.length).filter (fun b => decide ((su.buf b).st = st))

/-- Every in-flight count is 0 (R86). -/
def BufRec.countsZero (r : BufRec) : Bool :=
  r.prodWrites == 0 && r.prodReads == 0 && r.merges == 0 && r.scanReads == 0 && r.copyReads == 0 && r.copyWrites == 0

/-- A buffer leaves use (R105). -/
def BufRec.leaveUse (r : BufRec) : BufRec :=
  { r with st := if r.countsZero && !r.hold then .free else .draining }

/-- A DRAINING buffer is tested for release (R106). -/
def BufRec.release (r : BufRec) : BufRec :=
  if r.st = .draining ∧ r.countsZero = true ∧ r.hold = false then { r with st := .free } else r

/-- A record of surface `i`, whose pipe is the one its descriptor names (R108, R122, R152, R188). -/
def Fabric.logSurf (f : Fabric) (env : Env) (kind : EventKind) (i : Fin 8) (buffer : Option Nat) (seq detail : Nat) :
    Fabric :=
  f.log env kind (some i.val) (some (f.surf i).desc.pipe.toNat) buffer seq detail

/-- A merge is outstanding from its creation until its write is issued or its read ends without a write (R66). -/
def Merge.outstanding (m : Merge) : Bool := decide (m.st ≠ .writing)

/-- Whether a merge of the surface is outstanding (R66). -/
def Surface.mergeOutstanding (su : Surface) : Bool := su.merges.any Merge.outstanding

/-- The stripe of a stored address of a buffer (R50): its stored row divided by the stripe height. -/
def stripeOfAddr (d : Descriptor) (base addr : Nat) : Nat := (addr - base) / d.pitchBytes / d.stripeHeight

/-! ## Response records (R17, R18) -/

/-- The order of R18: FAULT, then TIMEOUT, then ABORTED, then OKAY. -/
def Worst.rank : Worst → Nat
  | .okay => 0
  | .aborted => 1
  | .timeout => 2
  | .fault => 3

/-- The worse of two results. -/
def Worst.join (a b : Worst) : Worst := if a.rank < b.rank then b else a

/-- The response code of a worst result (R18). -/
def Worst.code : Worst → UpCode
  | .okay => .okay
  | .aborted => .aborted
  | .timeout => .timeout
  | .fault => .fault

/-- The response of a complete record: a READ carries its data area only with OKAY (R3, R17). -/
def RespRecord.answer (r : RespRecord) : UpResponse :=
  { tag := r.tag, code := r.worst.code, data := if r.kind = .read ∧ r.worst = .okay then r.data else [] }

/-- Bytes written into a data area at a position. -/
def writeAt (data : List Byte) (pos : Nat) : List Byte → List Byte
  | [] => data
  | b :: bs => writeAt (data.set pos b) (pos + 1) bs

/-- A record changed by `g`. -/
def Fabric.modRecord (f : Fabric) (id : Nat) (g : RespRecord → RespRecord) : Fabric :=
  { f with records := f.records.map (fun r => if r.id = id then g r else r) }

/-- An upstream response leaves (R3). -/
def Fabric.send (f : Fabric) (r : UpResponse) : Fabric := { f with sent := f.sent ++ [r] }

/-- When the count is zero and the mark is set, the record sends the response and closes (R17). -/
def Fabric.closeIfDone (f : Fabric) (id : Nat) : Fabric :=
  match f.records.find? (fun r => r.id == id) with
  | some r =>
    if r.issued = 0 ∧ r.mark = true then
      { f with records := f.records.filter (fun q => q.id != id), sent := f.sent ++ [r.answer] }
    else f
  | none => f

/-- The mark that no further parts will be issued is set (R17). -/
def Fabric.markDone (f : Fabric) (id : Nat) : Fabric :=
  (f.modRecord id (fun r => { r with mark := true })).closeIfDone id

/-- The remaining parts of a request are dropped: ABORTED is taken into the worst result and the mark is set (R18). A
request with no part issued is thereby answered ABORTED at once. -/
def Fabric.dropRest (f : Fabric) (id : Nat) : Fabric :=
  (f.modRecord id (fun r => { r with worst := r.worst.join .aborted, mark := true })).closeIfDone id

/-- A request is answered with a code of its own and its record is closed (R15: RETRY). -/
def Fabric.answerNow (f : Fabric) (id : Nat) (code : UpCode) : Fabric :=
  match f.records.find? (fun r => r.id == id) with
  | some r =>
    { f with records := f.records.filter (fun q => q.id != id),
             sent := f.sent ++ [{ tag := r.tag, code := code, data := [] }] }
  | none => f

/-- A part of a request is issued (R17). -/
def Fabric.partIssued (f : Fabric) (id : Nat) : Fabric := f.modRecord id (fun r => { r with issued := r.issued + 1 })

/-- A part of a request ends with a result; `g` writes its bytes into the data area (R17). -/
def Fabric.partEnded (f : Fabric) (id : Nat) (res : Worst) (g : List Byte → List Byte) : Fabric :=
  (f.modRecord id (fun r => { r with issued := r.issued - 1, worst := r.worst.join res, data := g r.data })).closeIfDone id

end Sys2Proof.Machine
end

