-- ==== Sys2Proof/Machine/Placement.lean ====
section
/-! DEFINITION. The placement unit: the fill latch (R41, R42, R74), stored positions (R43, R44), the pixels, stripes and
runs of a DIRECT head (R46 to R50), and the mapping of a STREAM head (R76 to R80). -/

namespace Sys2Proof.Machine

/-! ## The fill latch -/

/-- The latch that an open fills from the descriptor (R42, R74). -/
def Descriptor.newLatch (d : Descriptor) : FillLatch :=
  let o := orientOf d.orient
  { orient := o, lw := d.lwOf o, lh := d.lhOf o,
    stream :=
      if d.isStream then
        some { xs := d.xs.toNat, xe := d.xe.toNat, ys := d.ys.toNat, ye := d.ye.toNat, columnFirst := d.order == 1,
               cx := d.xs.toNat, cy := d.ys.toNat }
      else none }

/-! ## From logical to stored positions -/

/-- The stored position of a logical pixel: exchange first, then mirror-X, then mirror-Y (R44). -/
def storedPos (d : Descriptor) (o : Orient) (lx ly : Nat) : Nat × Nat :=
  let sx := if o.exchange then ly else lx
  let sy := if o.exchange then lx else ly
  (if o.mirrorX then d.w - 1 - sx else sx, if o.mirrorY then d.h - 1 - sy else sy)

/-- The downstream address of a stored position (R44). -/
def storedAddr (d : Descriptor) (base : Nat) (p : Nat × Nat) : Nat := base + p.2 * d.pitchBytes + 4 * p.1

/-- The stripe of a stored row (R50). -/
def Descriptor.stripeOf (d : Descriptor) (sy : Nat) : Nat := sy / d.stripeHeight

/-- The elements of a list, each once, in the order of their first appearance. -/
def firstTimes (l : List Nat) : List Nat := l.foldl (fun acc k => if k ∈ acc then acc else acc ++ [k]) []

/-! ## The pixels of a DIRECT request -/

/-- The bytes of pixel `i` that lie in the span and have their enable set (R47); `first` is the span's first offset. -/
def pixelBytes (r : UpRequest) (first bpp i : Nat) : List (Option Byte) :=
  (List.range bpp).map fun j =>
    if first ≤ i * bpp + j then
      match r.bytes[i * bpp + j - first]? with
      | some x => if x.enabled = true ∧ i * bpp + j - first < r.len then some x.value else none
      | none => none
    else none

/-- Pixel `i` of a DIRECT request with its stored position under the latched orientation (R43, R44). -/
def directPixel (d : Descriptor) (l : FillLatch) (base : Nat) (r : UpRequest) (first i : Nat) : PixelMap :=
  let p := storedPos d l.orient (i % l.lw) (i / l.lw)
  { px := .index i, addr := storedAddr d base p, stripe := d.stripeOf p.2,
    bytes := match r.kind with
      | .write => pixelBytes r first d.bpp i
      | .read => [] }

/-- The covered pixels in increasing pixel index (R46). -/
def directPixels (d : Descriptor) (l : FillLatch) (base : Nat) (r : UpRequest) : List PixelMap :=
  let first := r.addr.toNat - d.apStart
  let i0 := first / d.bpp
  let i1 := (first + r.len - 1) / d.bpp
  (List.range' i0 (i1 + 1 - i0)).map (directPixel d l base r first)

/-- The stripes a DIRECT request touches, in pixel order: of every covered pixel for a READ, of every pixel with an
enabled byte for a WRITE (R50). -/
def directStripes (kind : AccessKind) (ps : List PixelMap) : List Nat :=
  match kind with
  | .read => firstTimes (ps.map (·.stripe))
  | .write => firstTimes ((ps.filter (fun p => p.bytes.any Option.isSome)).map (·.stripe))

/-! ## Runs -/

/-- The three conditions under which a placed pixel joins the current run (R48). -/
def joinsRun (run : Run) (p : Placed) : Bool :=
  match run.getLast? with
  | none => false
  | some q => decide (p.addr = q.addr + 4) && decide (run.length < 64) && decide (p.addr % 4096 ≠ 0)

/-- Placed pixels gathered into runs; `run` is the current run (R48). -/
def gatherRuns (run : Run) : List Placed → List Run
  | [] => if run = [] then [] else [run]
  | p :: ps =>
    if run = [] then gatherRuns [p] ps
    else if joinsRun run p then gatherRuns (run ++ [p]) ps
    else run :: gatherRuns [p] ps

/-! ## STREAM heads -/

/-- One step of the cursor within the latched window, and whether it wraps (R77, R78). -/
def StreamLatch.advance (l : StreamLatch) (x y : Nat) : Nat × Nat × Bool :=
  if l.columnFirst then
    if y < l.ye then (x, y + 1, false) else if x < l.xe then (x + 1, l.ys, false) else (l.xs, l.ys, true)
  else
    if x < l.xe then (x + 1, y, false) else if y < l.ye then (l.xs, y + 1, false) else (l.xs, l.ys, true)

/-- A pixel placed at a cursor position (R80). -/
def streamPixel (d : Descriptor) (l : FillLatch) (base x y : Nat) (bytes : List Byte) : Placed :=
  let p := storedPos d l.orient x y
  { px := .pos x y, addr := storedAddr d base p, stripe := d.stripeOf p.2, bytes := bytes }

/-- One byte of a STREAM head (R76, R78): it is held, or completes the cursor's pixel, or is an overrun byte. -/
def streamByte (d : Descriptor) (l : FillLatch) (sl : StreamLatch) (base : Nat) (w : StreamWalk) (b : Byte) :
    StreamWalk :=
  if w.wrapped then { w with overrun := w.overrun + 1 }
  else if (w.held ++ [b]).length < d.bpp then { w with held := w.held ++ [b] }
  else
    let n := sl.advance w.cx w.cy
    { cx := n.1, cy := n.2.1, held := [], placed := w.placed ++ [streamPixel d l base w.cx w.cy (w.held ++ [b])],
      wrapped := n.2.2, overrun := w.overrun }

/-- The held bytes of a slot, in order. -/
def heldBytes (slot : Option Slot) : List Byte :=
  match slot with
  | some t => t.bytes.filterMap id
  | none => []

/-- The walk of a STREAM request from the latch and the slot as they stand (R79). -/
def streamWalk (d : Descriptor) (l : FillLatch) (sl : StreamLatch) (base : Nat) (slot : Option Slot)
    (bytes : List Byte) : StreamWalk :=
  bytes.foldl (streamByte d l sl base)
    { cx := sl.cx, cy := sl.cy, held := heldBytes slot, placed := [], wrapped := false, overrun := 0 }

/-- The slot that a walk's trailing bytes leave (R76, R79). -/
def walkSlot (d : Descriptor) (l : FillLatch) (base b : Nat) (w : StreamWalk) : Option Slot :=
  if w.held = [] then none
  else some
    { px := .pos w.cx w.cy, buf := b, addr := storedAddr d base (storedPos d l.orient w.cx w.cy),
      bytes := w.held.map some ++ List.replicate (d.bpp - w.held.length) none }

/-! ## The mapping of a head -/

/-- The mapping of a head against buffer `b` and its latch (R46, R50, R79). Bytes beyond the packet's length are not taken in
either mode (DESIGN CHOICE, log 21). -/
def Surface.mapHead (su : Surface) (b : Nat) (r : UpRequest) : Mapping :=
  let d := su.desc
  let base := (su.buf b).base.toNat
  let l := su.latch.getD d.newLatch
  match l.stream with
  | none =>
    let ps := directPixels d l base r
    { buf := b, stripes := directStripes r.kind ps, plan := .direct ps }
  | some sl =>
    let w := streamWalk d l sl base su.slot ((r.bytes.take r.len).map (·.value))
    let tail := if w.held = [] then [] else [d.stripeOf (storedPos d l.orient w.cx w.cy).2]
    { buf := b, stripes := firstTimes (w.placed.map (·.stripe) ++ tail),
      plan := .stream { runs := gatherRuns [] w.placed, slotAfter := walkSlot d l base b w, cx := w.cx, cy := w.cy,
                        wraps := w.wrapped, overrun := w.overrun } }

end Sys2Proof.Machine
end

