-- ==== Sys2Proof/Machine/Converter.lean ====
section
/-! DEFINITION. The format converter: forward and reverse conversion (R55 to R59), the handling of a bound DIRECT head's
pixels with the assembly slot (R65, R66, R72), spills (R67), and the life of a merge (R67, R68, R70, R71). -/

namespace Sys2Proof.Machine

/-! ## Conversion -/

/-- An entry of a 32-entry expansion table. -/
def entry32 (t : Vector Byte 32) (v : BitVec 5) : Byte := t.get v.toFin

/-- An entry of the green expansion table. -/
def entry64 (t : Vector Byte 64) (v : BitVec 6) : Byte := t.get v.toFin

/-- An entry of a palette. -/
def paletteEntry (t : Vector PaletteEntry 256) (i : Byte) : PaletteEntry := t.get i.toFin

/-- Forward conversion: one producer pixel into one stored pixel, blue, green, red, extra (R56 to R59). -/
def forward (t : Tables) (d : Descriptor) (px : List Byte) : List Byte :=
  match d.fmt with
  | .f32 => [byteAt px 0, byteAt px 1, byteAt px 2, byteAt px 3]
  | .f24 => [byteAt px 0, byteAt px 1, byteAt px 2, d.extra]
  | .f16 =>
    let w := halfAt px 0
    [entry32 t.blue (w.extractLsb' 0 5), entry64 t.green (w.extractLsb' 5 6), entry32 t.red (w.extractLsb' 11 5), d.extra]
  | .f8 =>
    let e := paletteEntry (if d.palette = 0 then t.palA else t.palB) (byteAt px 0)
    [e.blue, e.green, e.red, d.extra]

/-- The word that the top bits of a stored pixel's channels pack into (R58). -/
def packWord (blue green red : Byte) : Half :=
  (red.extractLsb' 3 5 ++ green.extractLsb' 2 6 : BitVec 11) ++ blue.extractLsb' 3 5

/-- Reverse conversion: one stored pixel into one producer pixel (R56 to R58). An F8 surface has none (R59). -/
def reverse (d : Descriptor) (st : List Byte) : List Byte :=
  match d.fmt with
  | .f32 => [byteAt st 0, byteAt st 1, byteAt st 2, byteAt st 3]
  | .f24 => [byteAt st 0, byteAt st 1, byteAt st 2]
  | .f16 => halfBytes (packWord (byteAt st 0) (byteAt st 1) (byteAt st 2))
  | .f8 => []

/-! ## The assembly slot -/

/-- Held bytes with new bytes laid over them: a byte already held is replaced by the new one (R65). -/
def overlay (held new : List (Option Byte)) : List (Option Byte) :=
  List.zipWith (fun h n => n.or h) held new

/-- Whether the slot holds this pixel of this buffer (R65). -/
def slotIs (slot : Option Slot) (px : PixelRef) (b : Nat) : Bool :=
  match slot with
  | some t => decide (t.px = px) && decide (t.buf = b)
  | none => false

/-- The pixel as placed, with its bytes. -/
def PixelMap.place (p : PixelMap) (bytes : List (Option Byte)) : Placed :=
  { px := p.px, addr := p.addr, stripe := p.stripe, bytes := bytes.filterMap id }

/-- The pixel's bytes taken into the slot. -/
def PixelMap.toSlot (p : PixelMap) (b : Nat) (bytes : List (Option Byte)) : Slot :=
  { px := p.px, buf := b, addr := p.addr, bytes := bytes }

/-- The run closes before `todo` is handled: it becomes a part, and nothing more is handled until that part has been
issued (R66). -/
def closeRun (slot : Option Slot) (run : Run) (todo : List PixelMap) : Handled :=
  { slot := slot, spilled := none, part := if run = [] then none else some run, todo := todo }

/-- The converter handles the pixels of a WRITE in pixel order, until a run closes, the slot spills, or none is left (R65,
R66). -/
def handleWrite (b : Nat) (slot : Option Slot) (run : Run) : List PixelMap → Handled
  | [] => closeRun slot run []
  | p :: ps =>
    if p.bytes.all Option.isSome then
      -- all enabled: placed; a slot that holds this pixel is emptied
      if run = [] ∨ joinsRun run (p.place p.bytes) = true then
        handleWrite b (if slotIs slot p.px b then none else slot) (run ++ [p.place p.bytes]) ps
      else closeRun slot run (p :: ps)
    else if p.bytes.all Option.isNone then
      -- none enabled: skipped
      if run = [] then handleWrite b slot [] ps else closeRun slot run (p :: ps)
    else
      match slot with
      | none =>
        if run = [] then handleWrite b (some (p.toSlot b p.bytes)) [] ps else closeRun none run (p :: ps)
      | some t =>
        if slotIs (some t) p.px b then
          let all := overlay t.bytes p.bytes
          if all.all Option.isSome then
            if run = [] ∨ joinsRun run (p.place all) = true then handleWrite b none (run ++ [p.place all]) ps
            else closeRun (some t) run (p :: ps)
          else if run = [] then handleWrite b (some { t with bytes := all }) [] ps
          else closeRun (some t) run (p :: ps)
        else if run = [] then
          { slot := some (p.toSlot b p.bytes), spilled := some t, part := none, todo := ps }
        else closeRun (some t) run (p :: ps)

/-- The converter handles the pixels of a READ: every covered pixel is placed, and the slot's pixel spills first (R72). Where pixels
before it have formed a run, that run closes and is issued before the spill, although the slot's pixel could join it (DESIGN CHOICE,
log 29). -/
def handleRead (b : Nat) (slot : Option Slot) (run : Run) : List PixelMap → Handled
  | [] => closeRun slot run []
  | p :: ps =>
    if slotIs slot p.px b then
      if run = [] then { slot := none, spilled := slot, part := none, todo := p :: ps }
      else closeRun slot run (p :: ps)
    else if run = [] ∨ joinsRun run (p.place p.bytes) = true then handleRead b slot (run ++ [p.place p.bytes]) ps
    else closeRun slot run (p :: ps)

/-! ## Merges -/

/-- A spill makes the slot's pixel a WAITING merge, and its buffer's merge count rises by 1 (R67). The caller empties the
slot. -/
def Fabric.createMerge (f : Fabric) (i : Fin 8) (t : Slot) : Fabric :=
  let m : Merge :=
    { id := f.nextMerge, buf := t.buf, addr := t.addr, bytes := t.bytes, st := .waiting, noWrite := false,
      formed := none, presented := none }
  let f := { f with nextMerge := f.nextMerge + 1 }
  f.modSurf i (fun su =>
    { su with merges := su.merges ++ [m] }.modBuf t.buf (fun r => { r with merges := r.merges + 1 }))

/-- A merge ends: it leaves the list and its buffer's merge count falls by 1 (R68, R70, R71). -/
def Surface.endMerge (su : Surface) (m : Merge) : Surface :=
  { su with merges := su.merges.filter (fun q => q.id != m.id) }.modBuf m.buf
    (fun r => { r with merges := r.merges - 1 })

/-- The oldest outstanding merge of the surface: the one that may claim a tag (R67). -/
def Surface.firstOutstanding (su : Surface) : Option Merge := su.merges.find? Merge.outstanding

/-- Whether a merge has a claim ready: its read while WAITING, its write once the read has completed OKAY (R156). -/
def Merge.claims (m : Merge) : Bool :=
  match m.st with
  | .waiting => true
  | .reading => m.formed.isSome
  | .writing => false

/-- The merge that presents the surface's merge claim, if any (R156). -/
def Surface.mergeClaim (su : Surface) : Option Merge :=
  match su.firstOutstanding with
  | some m => if m.claims then some m else none
  | none => none

/-- A merge changed by `g`. -/
def Surface.modMerge (su : Surface) (id : Nat) (g : Merge → Merge) : Surface :=
  { su with merges := su.merges.map (fun m => if m.id = id then g m else m) }

/-- The stored pixel of a merge's write: the read pixel reverse-converted, the held bytes laid over it, and the result
forward-converted (R68). -/
def mergedPixel (t : Tables) (d : Descriptor) (held : List (Option Byte)) (stored : List Byte) : List Byte :=
  forward t d ((overlay ((reverse d stored).map some) held).filterMap id)

/-- What DISCARD FILLING and DETACH do to one merge they reach (R71): whether it is dropped, or goes on without a write. -/
def Merge.interrupt (m : Merge) : Option Merge :=
  match m.st with
  | .waiting => none
  | .reading => if m.formed.isSome then none else some { m with noWrite := true }
  | .writing => some m

/-- The merges that `p` selects are interrupted in creation order; each one dropped lowers its buffer's merge count (R71). -/
def Surface.interruptMerges (su : Surface) (p : Merge → Bool) : Surface :=
  su.merges.foldl
    (fun s m =>
      if p m then
        match m.interrupt with
        | none => s.endMerge m
        | some m' => s.modMerge m.id (fun _ => m')
      else s) su

end Sys2Proof.Machine
end

