-- ==== Sys2Proof/Machine/CopyEngine.lean ====
section
/-! DEFINITION. The copy engine: copy sets and sources (R133, R134), jobs and the copy queue (R135, R136), selection of
stripes (R138 to R140), chunks and slots (R141, R142), the end of a chunk and of a job (R137, R146), failed chunks (R147)
and cancellation (R148, R149). -/

namespace Sys2Proof.Machine

/-! ## Jobs -/

/-- Whether a job is the one of surface `i` that targets buffer `b`. -/
def CopyJob.isFor (j : CopyJob) (i : Fin 8) (b : Nat) : Bool := decide (j.surface = i) && decide (j.target = b)

/-- The job of surface `i` that targets buffer `b`, QUEUED or DEFERRED (R145). -/
def Fabric.jobOf (f : Fabric) (i : Fin 8) (b : Nat) : Option CopyJob :=
  (f.copy.queue ++ (f.surf i).deferred).find? (fun j => j.isFor i b)

/-- That job changed by `g`, in whichever place it stands. -/
def Fabric.modJob (f : Fabric) (i : Fin 8) (b : Nat) (g : CopyJob → CopyJob) : Fabric :=
  let m := fun j : CopyJob => if j.isFor i b then g j else j
  { f with copy := { f.copy with queue := f.copy.queue.map m } }.modSurf i
    (fun su => { su with deferred := su.deferred.map m })

/-- That job taken out of the copy queue or the deferred list. -/
def Fabric.removeJob (f : Fabric) (i : Fin 8) (b : Nat) : Fabric :=
  { f with copy := { f.copy with queue := f.copy.queue.filter (fun j => !j.isFor i b) } }.modSurf i
    (fun su => { su with deferred := su.deferred.filter (fun j => !j.isFor i b) })

/-- The oldest DEFERRED job of the surface joins the tail of the copy queue (R136). -/
def Fabric.promoteDeferred (f : Fabric) (i : Fin 8) : Fabric :=
  match (f.surf i).deferred with
  | [] => f
  | j :: js =>
    { f with copy := { f.copy with queue := f.copy.queue ++ [j] } }.modSurf i (fun su => { su with deferred := js })

/-- The state of a stripe in a job; a stripe outside the copy set has none. -/
def CopyJob.stateOf (j : CopyJob) (k : Nat) : Option StripeState :=
  (j.stripes.find? (fun r => r.stripe == k)).map (·.st)

/-- A stripe of a job changed by `g`. -/
def CopyJob.modStripe (j : CopyJob) (k : Nat) (g : StripeRec → StripeRec) : CopyJob :=
  { j with stripes := j.stripes.map (fun r => if r.stripe = k then g r else r) }

/-- Every stripe of the copy set is DONE (R146). -/
def CopyJob.allDone (j : CopyJob) : Bool := j.stripes.all (fun r => decide (r.st = .done))

/-- The lowest-numbered PENDING stripe: the stripes stand in rising order. -/
def CopyJob.lowestPending (j : CopyJob) : Option Nat :=
  (j.stripes.find? (fun r => decide (r.st = .pending))).map (·.stripe)

/-! ## The decision at an open (R133 to R135) -/

/-- The copy set of a fill into buffer `b` (R133). -/
def Surface.copySet (su : Surface) (b : Nat) : StripeSet :=
  let c := (su.buf b).content
  if su.desc.carryForward = false then []
  else if su.frameCounter = 0 then []
  else if c = su.frameCounter then []
  else if su.history.any (fun e => e.seq == c) then
    (su.history.filter (fun e => decide (c < e.seq))).foldr (fun e acc => addStripes e.stripes acc) []
  else List.range su.desc.stripeCount

/-- A new job, every stripe PENDING (R135). -/
def newJob (i : Fin 8) (source target : Nat) (set : StripeSet) : CopyJob :=
  { surface := i, source := source, target := target,
    stripes := set.map (fun k => { stripe := k, st := .pending, chunks := 0, fault := false }) }

/-- A job joins the copy queue as QUEUED, or the surface's deferred list as DEFERRED when the queue holds a job of the
surface (R135). -/
def Fabric.addJob (f : Fabric) (j : CopyJob) : Fabric :=
  if f.copy.queue.any (fun q => decide (q.surface = j.surface)) then
    f.modSurf j.surface (fun su => { su with deferred := su.deferred ++ [j] })
  else { f with copy := { f.copy with queue := f.copy.queue ++ [j] } }

/-- Step 1 of an open (R91): the copy set is decided, and a job is created under source hold, or CARRY_LOST is appended and
the history emptied when no buffer holds the newest frame (R133 to R135). -/
def Fabric.decideCopy (f : Fabric) (env : Env) (i : Fin 8) (b : Nat) : Fabric :=
  let su := f.surf i
  let set := su.copySet b
  if set = [] then f
  else
    match su.bufs.findIdx? (fun r => r.content == su.frameCounter) with
    | none =>
      (f.modSurf i (fun s => { s with history := [] })).logSurf env .carryLost i (some b) su.frameCounter 0
    | some src =>
      (f.modBuf i src (fun r => { r with hold := true })).addJob (newJob i src b set)

/-! ## Selection (R138, R139) -/

/-- A QUEUED job is startable while its source buffer is not CLOSING (R138). -/
def Fabric.startable (f : Fabric) (j : CopyJob) : Bool :=
  decide (((f.surf j.surface).buf j.source).st ≠ .closing)

/-- The PENDING stripes that the surface's lane head waits on, in the head's pixel order (R139, R145). -/
def Fabric.waitedStripes (f : Fabric) (i : Fin 8) : List Nat :=
  match (f.surf i).head with
  | .mapped m =>
    match f.jobOf i m.buf with
    | some j => m.stripes.filter (fun k => decide (j.stateOf k = some .pending))
    | none => []
  | _ => []

/-- The acceptance number of the surface's lane head. -/
def Fabric.headId (f : Fabric) (i : Fin 8) : Nat :=
  match (f.surf i).lane with
  | q :: _ => q.id
  | [] => 0

/-- The job whose surface's head was accepted earliest. -/
def Fabric.earliestHead (f : Fabric) : List CopyJob → Option CopyJob
  | [] => none
  | j :: js =>
    match f.earliestHead js with
    | none => some j
    | some k => if f.headId j.surface ≤ f.headId k.surface then some j else some k

/-- The stripe that a waiting head claims in a job: its earliest pixel's PENDING stripe if it waits on this job, else the
job's lowest-numbered PENDING stripe (R139, step 1). -/
def Fabric.claimedStripe (f : Fabric) (j : CopyJob) : Option Nat :=
  match (f.surf j.surface).head with
  | .mapped m => if m.buf = j.target then (f.waitedStripes j.surface).head? else j.lowestPending
  | _ => j.lowestPending

/-- The stripe becomes COPYING and current, at its first row and offset 0 (R137, R139). -/
def Fabric.makeCurrent (f : Fabric) (j : CopyJob) (k : Nat) : Fabric :=
  let f := f.modJob j.surface j.target (fun q => q.modStripe k (fun r => { r with st := .copying }))
  let c : CurrentStripe :=
    { surface := j.surface, target := j.target, stripe := k,
      row := k * (f.surf j.surface).desc.stripeHeight, off := 0 }
  { f with copy := { f.copy with current := some c } }

/-- An engine without a current stripe selects one: a stripe that a waiting head asks for before any other, else of the
earliest startable job (R139). DESIGN CHOICE, unsafe (log 30): the earliest waiting head may wait on a DEFERRED job while the
QUEUED job of its surface has no PENDING stripe, and the spec leaves open what step 1 takes then. The model leaves a job without
a PENDING stripe out of step 1: the job of the next waiting head is taken, and with none step 2 follows. -/
def Fabric.select (f : Fabric) : Fabric :=
  if f.copy.current.isSome then f
  else
    let cands := f.copy.queue.filter (fun j => f.startable j && j.lowestPending.isSome)
    match f.earliestHead (cands.filter (fun j => !(f.waitedStripes j.surface).isEmpty)) with
    | some j =>
      match f.claimedStripe j with
      | some k => f.makeCurrent j k
      | none => f
    | none =>
      match cands with
      | [] => f
      | j :: _ =>
        match j.lowestPending with
        | some k => f.makeCurrent j k
        | none => f

/-! ## Chunks (R141, R142) -/

/-- The length of a chunk that starts at byte `off` of a row of 4W bytes at an address (R141). -/
def chunkLen (rowBytes off addr : Nat) : Nat := min (min 256 (rowBytes - off)) (4096 - addr % 4096)

/-- The engine starts the next chunk of its current stripe: it takes a slot, and the chunk position advances; with the last
chunk the engine has no current stripe (R139, R141, R142). -/
def Fabric.startChunk (f : Fabric) (c : CurrentStripe) : Fabric :=
  match f.jobOf c.surface c.target with
  | none => { f with copy := { f.copy with current := none } }
  | some j =>
    let su := f.surf c.surface
    let d := su.desc
    let rel := c.row * d.pitchBytes + c.off
    let src := (su.buf j.source).base.toNat + rel
    let len := chunkLen (4 * d.w) c.off src
    let ch : Chunk :=
      { id := f.copy.nextChunk, surface := c.surface, source := j.source, target := j.target, stripe := c.stripe,
        srcAddr := src, tgtAddr := (su.buf j.target).base.toNat + rel, len := len, phase := .waiting, data := [],
        orphan := false }
    let next : Option CurrentStripe :=
      if c.off + len < 4 * d.w then some { c with off := c.off + len }
      else if c.row + 1 < d.stripeEnd c.stripe then some { c with row := c.row + 1, off := 0 }
      else none
    let f := f.modJob c.surface c.target (fun q => q.modStripe c.stripe (fun r => { r with chunks := r.chunks + 1 }))
    { f with copy :=
      { f.copy with current := next, slots := f.copy.slots ++ [ch], nextChunk := f.copy.nextChunk + 1 } }

/-- The engine selects and starts chunks while a slot is free (R139, R142); four slots, so five goes suffice. -/
def Fabric.runEngine : Nat → Fabric → Fabric
  | 0, f => f
  | n + 1, f =>
    let f := f.select
    match f.copy.current with
    | some c => if f.copy.slots.length < 4 then Fabric.runEngine n (f.startChunk c) else f
    | none => f

/-! ## The end of chunks and jobs (R137, R146, R147) -/

/-- A job ends: it leaves the copy queue, its source's hold is cleared, and the oldest DEFERRED job joins (R146, steps 1 to
3). The caller makes the tests of the buffers (steps 2 and 4). -/
def Fabric.endJob (f : Fabric) (i : Fin 8) (j : CopyJob) : Fabric :=
  ((f.removeJob i j.target).modBuf i j.source (fun r => { r with hold := false })).promoteDeferred i

/-- Whether a stripe is the engine's current one: some of its chunks have not started (R139). -/
def CopyEngine.isCurrent (c : CopyEngine) (i : Fin 8) (b k : Nat) : Bool :=
  match c.current with
  | some q => decide (q.surface = i) && decide (q.target = b) && decide (q.stripe = k)
  | none => false

/-- A chunk ends: its slot is freed, its stripe is tested for DONE, and its job for its end (R137, R144, R146). -/
def Fabric.endChunk (f : Fabric) (ch : Chunk) : Fabric :=
  let f := { f with copy := { f.copy with slots := f.copy.slots.filter (fun q => q.id != ch.id) } }
  if ch.orphan then f
  else
    let cur := f.copy.isCurrent ch.surface ch.target ch.stripe
    let f := f.modJob ch.surface ch.target (fun q => q.modStripe ch.stripe (fun r =>
      let r := { r with chunks := r.chunks - 1 }
      if r.st = .copying ∧ r.chunks = 0 ∧ cur = false then { r with st := .done } else r))
    match f.jobOf ch.surface ch.target with
    | some j => if j.allDone then f.endJob ch.surface j else f
    | none => f

/-- Whether a failed chunk appends COPY_FAULT: an orphan does, and the first failed chunk of its stripe (R147, R148). -/
def Fabric.reportsCopyFault (f : Fabric) (ch : Chunk) : Bool :=
  ch.orphan ||
    match f.jobOf ch.surface ch.target with
    | some j => j.stripes.any (fun r => r.stripe == ch.stripe && !r.fault)
    | none => false

/-- COPY_FAULT for a failed chunk, and the stripe's fault mark (R147, R152). -/
def Fabric.copyFault (f : Fabric) (env : Env) (ch : Chunk) : Fabric :=
  if f.reportsCopyFault ch then
    let f := f.logSurf env .copyFault ch.surface (some ch.target) ((f.surf ch.surface).buf ch.target).content ch.stripe
    if ch.orphan then f
    else f.modJob ch.surface ch.target (fun q => q.modStripe ch.stripe (fun r => { r with fault := true }))
  else f

/-! ## Cancellation (R148, R149) -/

/-- What cancellation does to a chunk of the job, by its phase (R148, step 3). -/
def Chunk.cancel (ch : Chunk) : Option Chunk :=
  match ch.phase with
  | .waiting | .holding => none
  | .reading | .writing => some { ch with orphan := true }

/-- The chunks of the job in slots are handled by phase; orphans of earlier jobs stay (R148, step 3). -/
def Fabric.cancelChunks (f : Fabric) (i : Fin 8) (b : Nat) : Fabric :=
  let g := fun ch : Chunk => if ch.surface = i ∧ ch.target = b ∧ ch.orphan = false then ch.cancel else some ch
  { f with copy := { f.copy with slots := f.copy.slots.filterMap g } }

/-- The engine's current stripe is dropped if it is of this job, and the engine selects again (R148, step 2). -/
def Fabric.dropCurrent (f : Fabric) (i : Fin 8) (b : Nat) : Fabric :=
  match f.copy.current with
  | some c =>
    if c.surface = i ∧ c.target = b then { f with copy := { f.copy with current := none } }.select else f
  | none => f

/-- The job of surface `i` that targets `b` is cancelled (R148): it leaves its place, with a DEFERRED job joining the queue
only where `promote` says so (R149), its current stripe and its chunks are dropped, and its source's hold is cleared. The
caller makes the release test. -/
def Fabric.cancelJob (f : Fabric) (i : Fin 8) (b : Nat) (promote : Bool) : Fabric :=
  match f.jobOf i b with
  | none => f
  | some j =>
    let queued := f.copy.queue.any (fun q => q.isFor i b)
    let f := f.removeJob i b
    let f := if promote && queued then f.promoteDeferred i else f
    let f := f.dropCurrent i b
    let f := f.cancelChunks i b
    f.modBuf i j.source (fun r => { r with hold := false })

/-- The jobs of surface `i`, QUEUED and DEFERRED (R149). -/
def Fabric.jobsOf (f : Fabric) (i : Fin 8) : List CopyJob :=
  f.copy.queue.filter (fun j => decide (j.surface = i)) ++ (f.surf i).deferred

/-- Every job of the surface is cancelled, and no DEFERRED one joins the queue (R149). -/
def Fabric.cancelJobs (f : Fabric) (i : Fin 8) : Fabric :=
  (f.jobsOf i).foldl (fun g j => g.cancelJob i j.target false) f

end Sys2Proof.Machine
end

