-- ==== Sys2Proof/Machine/Rotation.lean ====
section
/-! DEFINITION. The rotation controller: the tests of the buffers (R99, R106, R33), opening (R89 to R93), the hold limit
(R94), closing (R95 to R98), and the boundary's steps with flips (R116 to R119). -/

namespace Sys2Proof.Machine

/-! ## The tests of the buffers -/

/-- Whether a CLOSING buffer, with no older one CLOSING, becomes READY (R99). -/
def Fabric.readyTest (f : Fabric) (i : Fin 8) (b : Nat) : Bool :=
  let r := (f.surf i).buf b
  r.prodWrites == 0 && r.merges == 0 && r.copyWrites == 0 && (f.jobOf i b).isNone

/-- A CLOSING buffer becomes READY and joins the present queue, and FRAME_READY is appended (R99, R100, R108). -/
def Fabric.makeReady (f : Fabric) (env : Env) (i : Fin 8) (b : Nat) : Fabric :=
  let f := f.modSurf i (fun su =>
    { su with closing := su.closing.erase b, present := su.present ++ [b] }.modBuf b (fun r => { r with st := .ready }))
  let r := (f.surf i).buf b
  f.logSurf env .frameReady i (some b) r.content (if r.damaged then 1 else 0)

/-- The CLOSING buffers in close order become READY one after another while the test passes (R99). -/
def Fabric.promoteReady (env : Env) (i : Fin 8) : List Nat → Fabric → Fabric
  | [], f => f
  | b :: bs, f => if f.readyTest i b then Fabric.promoteReady env i bs (f.makeReady env i b) else f

/-- The drain of a DETACHING surface ends when every buffer is FREE and no merge is outstanding: the surface becomes
DEFINED, its records go out of use, and DETACHED is appended unless the device is RESETTING (R33, R39, R109). The four scanout
values, which are then out of use (R123), stay as last left, as the counters of R109 do (DESIGN CHOICE, log 8). -/
def Fabric.drainEnd (f : Fabric) (env : Env) (i : Fin 8) : Fabric :=
  let su := f.surf i
  if su.life = .detaching ∧ su.bufs.all (fun r => decide (r.st = .free)) = true ∧ su.mergeOutstanding = false then
    let f := f.modSurf i (fun su => { su with life := .defined, bufs := [], present := [], closing := [] })
    if env.running then f.logSurf env .detached i none 0 0 else f
  else f

/-- The tests that the rotation controller makes on a surface's buffers whenever a count falls, a hold clears, a job ends
or a buffer changes state: release of DRAINING buffers, READY for CLOSING ones, the end of a drain. -/
def Fabric.bufferTests (f : Fabric) (env : Env) (i : Fin 8) : Fabric :=
  let f := f.modSurf i (fun su => { su with bufs := su.bufs.map BufRec.release })
  (Fabric.promoteReady env i (f.surf i).closing f).drainEnd env i

/-! ## Opening a buffer -/

/-- The buffer with the greatest content sequence of a list. -/
def Surface.newestOf (su : Surface) : List Nat → Option Nat
  | [] => none
  | b :: bs =>
    match su.newestOf bs with
    | none => some b
    | some k => if (su.buf k).content ≤ (su.buf b).content then some b else some k

/-- The choice among the FREE buffers: the one holding the newest frame, else the newest the history knows, else the
lowest index (R90). -/
def Surface.chooseFree (su : Surface) : Option Nat :=
  let frees := su.bufsIn .free
  let holdsNewest := frees.find? (fun b => decide (su.frameCounter ≠ 0) && (su.buf b).content == su.frameCounter)
  let known := frees.filter (fun b => su.history.any (fun e => e.seq == (su.buf b).content))
  (holdsNewest.or (su.newestOf known)).or frees.head?

/-- The open of buffer `b` (R91). -/
def Fabric.openBuffer (f : Fabric) (env : Env) (i : Fin 8) (b : Nat) : Fabric :=
  (f.decideCopy env i b).modSurf i (fun su =>
    { su with latch := some su.desc.newLatch, holdWait := 0, holdReached := false }.modBuf b (fun r =>
      { r with st := .filling, content := 0, written := [], touched := false, damaged := false, age := 0 }))

/-- The oldest eligible READY buffer: its source hold is clear (R92). -/
def Surface.reclaimable (su : Surface) : Option Nat := su.present.find? (fun b => !(su.buf b).hold)

/-- RECLAIM takes a READY buffer: it leaves the present queue with a FRAME_DROPPED record and is opened (R92). -/
def Fabric.reclaimBuffer (f : Fabric) (env : Env) (i : Fin 8) (b : Nat) : Fabric :=
  let f := f.modSurf i (fun su => { su with present := su.present.erase b })
  (f.logSurf env .frameDropped i (some b) ((f.surf i).buf b).content 0).openBuffer env i b

/-- The rotation controller answers a head that asks for a buffer: the buffer it opened, if any (R89). -/
def Fabric.obtainBuffer (f : Fabric) (env : Env) (i : Fin 8) : Option (Nat × Fabric) :=
  let su := f.surf i
  match su.chooseFree with
  | some b => some (b, f.openBuffer env i b)
  | none =>
    if su.desc.reclaim then
      match su.reclaimable with
      | some b => some (b, f.reclaimBuffer env i b)
      | none => none
    else none

/-! ## The hold limit (R94) -/

/-- Every request in the lane is answered RETRY and removed, HOLD_EXPIRED is appended, and the counter becomes 0. -/
def Fabric.expireHold (f : Fabric) (env : Env) (i : Fin 8) : Fabric :=
  let lane := (f.surf i).lane
  let f := lane.foldl (fun g q => g.answerNow q.id .retry) f
  let f := f.modSurf i (fun su => { su with lane := [], head := .fresh })
  let f := f.logSurf env .holdExpired i none 0 lane.length
  f.modSurf i (fun su => { su with holdWait := 0, holdReached := false })

/-- The counter is incremented, up to 15, and tested against the hold limit: reached when the limit is not 0 and the counter
then stands at or above it (R94). There is no other test, so a limit that SET_POLICY lowers waits for the next one (R38). -/
def Surface.countHold (su : Surface) : Surface :=
  let n := min 15 (su.holdWait + 1)
  { su with
    holdWait := n
    holdReached := decide (su.desc.holdLimit ≠ 0) && decide (su.desc.holdLimit.toNat ≤ n) }

/-- The hold-wait part of a boundary's ageing step: the counter of a waiting head is incremented and tested, and the expiry is
taken (R94, R116). -/
def Fabric.holdStep (f : Fabric) (env : Env) (i : Fin 8) : Fabric :=
  if (f.surf i).head = .waiting then
    let f := f.modSurf i Surface.countHold
    if (f.surf i).holdReached then f.expireHold env i else f
  else f

/-! ## Closing a frame -/

/-- The next sequence: FFFF_FFFFh is followed by 1 (R97). -/
def nextSeq (c : Nat) : Nat := if c = 0xFFFFFFFF then 1 else c + 1

/-- At the wrap of the frame counter the history is emptied, and every other buffer that is FREE, SHOWN or DRAINING takes
the content sequence NONE (R97). -/
def Surface.wrapSequences (su : Surface) : Surface :=
  if su.frameCounter = 0xFFFFFFFF then
    { su with
      history := []
      bufs := su.bufs.map (fun r =>
        if r.st = .free ∨ r.st = .shown ∨ r.st = .draining then { r with content := 0 } else r) }
  else su

/-- The stripe set handed over at a close: the buffer's written stripes, the slot's stripe, and the stripes of outstanding
merges (R53). -/
def Surface.closingStripes (su : Surface) (b : Nat) : StripeSet :=
  let stripeAt := fun (k addr : Nat) => stripeOfAddr su.desc (su.buf k).base.toNat addr
  let slot := match su.slot with
    | some t => [stripeAt t.buf t.addr]
    | none => []
  let merges := (su.merges.filter Merge.outstanding).map (fun m => stripeAt m.buf m.addr)
  addStripes (slot ++ merges) (su.buf b).written

/-- The history with an entry appended; of five entries the oldest is removed (R98). -/
def appendHistory (h : List HistoryEntry) (e : HistoryEntry) : List HistoryEntry :=
  (h ++ [e]).drop (h.length + 1 - 4)

/-- An unbound head drops the mapping it has computed (R95). -/
def HeadPhase.dropMapping : HeadPhase → HeadPhase
  | .mapped _ => .fresh
  | h => h

/-- Steps 1 to 3 of a close applying to buffer `b`: the sequence, the history entry, and CLOSING (R96). -/
def Surface.closeSteps (su : Surface) (b : Nat) : Surface :=
  let s := nextSeq su.frameCounter
  let su := su.wrapSequences
  let su := { su with frameCounter := s }.modBuf b (fun r => { r with content := s })
  let su :=
    if su.desc.carryForward then
      { su with history := appendHistory su.history { seq := s, stripes := su.closingStripes b } }
    else su
  { su with closePending := false, latch := none, closing := su.closing ++ [b],
            head := su.head.dropMapping }.modBuf b (fun r => { r with st := .closing })

/-- The slot spills: its pixel becomes a merge and the slot is empty (R67, R69). -/
def Fabric.spillSlot (f : Fabric) (i : Fin 8) : Fabric :=
  match (f.surf i).slot with
  | some t => (f.createMerge i t).modSurf i (fun su => { su with slot := none })
  | none => f

/-- A close applies to the FILLING buffer `b` (R96). -/
def Fabric.applyClose (f : Fabric) (env : Env) (i : Fin 8) (b : Nat) : Fabric :=
  ((f.modSurf i (fun su => su.closeSteps b)).spillSlot i).bufferTests env i

/-- Whether the lane head is bound (R89). -/
def Surface.headBound (su : Surface) : Bool :=
  match su.head with
  | .bound _ => true
  | _ => false

/-- A close trigger is taken: without a FILLING buffer it has no effect; behind a bound head it is left pending (R95). -/
def Fabric.closeTrigger (f : Fabric) (env : Env) (i : Fin 8) : Fabric :=
  match (f.surf i).filling with
  | none => f
  | some b =>
    if (f.surf i).headBound then f.modSurf i (fun su => { su with closePending := true }) else f.applyClose env i b

/-! ## The boundary at the rotation controller (R116 to R120) -/

/-- Step 1, ageing of the SHOWN buffer, saturating at 255. -/
def Surface.ageShown (su : Surface) : Surface :=
  match su.shown with
  | some b => su.modBuf b (fun r => { r with age := min 255 (r.age + 1) })
  | none => su

/-- Whether the surface may flip (R116, step 2). -/
def Surface.mayFlip (su : Surface) : Bool :=
  match su.shown with
  | some b => decide (su.desc.minShow.toNat ≤ (su.buf b).age)
  | none => true

/-- A READY buffer is superseded under LATEST (R118). `n` is the boundary number. -/
def Fabric.skipBuffer (f : Fabric) (env : Env) (i : Fin 8) (n : Word) (b : Nat) : Fabric :=
  let f := f.modSurf i (fun su => { su with present := su.present.erase b }.modBuf b BufRec.leaveUse)
  f.logSurf env .frameSkipped i (some b) ((f.surf i).buf b).content (n.toNat % 65536)

/-- A flip makes READY buffer `b` SHOWN, and the previous SHOWN buffer leaves use (R117). -/
def Fabric.flipTo (f : Fabric) (env : Env) (i : Fin 8) (n : Word) (b : Nat) : Fabric :=
  let f := f.modSurf i (fun su =>
    let su' := match su.shown with
      | some o => su.modBuf o BufRec.leaveUse
      | none => su
    { su' with present := su'.present.erase b }.modBuf b (fun r => { r with st := .shown, age := 0 }))
  f.logSurf env .flip i (some b) ((f.surf i).buf b).content (n.toNat % 65536)

/-- Step 2, flip selection under the present policy (R116, R118). -/
def Fabric.flipSelect (f : Fabric) (env : Env) (i : Fin 8) (n : Word) : Fabric :=
  let su := f.surf i
  if su.mayFlip = false then f
  else if su.desc.latest then
    match su.present.getLast? with
    | some b => (su.present.dropLast.foldl (fun g k => g.skipBuffer env i n k) f).flipTo env i n b
    | none => f
  else
    match su.present with
    | b :: _ => f.flipTo env i n b
    | [] => f

/-- Step 3, close on boundary: only a touched fill is closed (R116, R120). -/
def Fabric.closeOnBoundary (f : Fabric) (env : Env) (i : Fin 8) : Fabric :=
  let su := f.surf i
  match su.filling with
  | some b => if su.desc.closeOnBoundary = true ∧ (su.buf b).touched = true then f.closeTrigger env i else f
  | none => f

/-- The boundary rule of an ATTACHED surface: ageing, flip selection, close on boundary (R116). -/
def Fabric.boundaryRule (f : Fabric) (env : Env) (i : Fin 8) (n : Word) : Fabric :=
  let f := f.modSurf i Surface.ageShown
  let f := f.holdStep env i
  (f.flipSelect env i n).closeOnBoundary env i

end Sys2Proof.Machine
end

