-- ==== Sys2Proof/Machine/Scanout.lean ====
section
/-! DEFINITION. The scanout view: the latch of scroll and visible range (R124), and the resolution of a scanout read into
memory bytes, blank bytes and parts (R125 to R128). -/

namespace Sys2Proof.Machine

/-- The view's latch at a boundary: both pending values become active together (R124). -/
def Surface.latchScanout (su : Surface) : Surface :=
  { su with scrollActive := su.scrollPending, topActive := su.topPending, bottomActive := su.bottomPending }

/-- The physical row of a display row under the rolling band (R126). -/
def physicalRow (d : Descriptor) (scroll sy : Nat) : Nat :=
  let top := d.bandTop.toNat
  let rows := d.bandRows.toNat
  if rows ≠ 0 ∧ top ≤ sy ∧ sy < top + rows then top + (sy - top + scroll) % rows else sy

/-- The buffer that a scanout read accepted now has as its target: the SHOWN buffer of an ATTACHED surface (R125). -/
def Surface.scanTarget (su : Surface) : Option Nat := if su.life = .attached then su.shown else none

/-- The downstream address of the byte at aperture offset `o`, or none for a blank byte (R125, R126). -/
def Surface.scanByte (su : Surface) (o : Nat) : Option Nat :=
  let d := su.desc
  let sy := o / d.pitchBytes
  match su.scanTarget with
  | none => none
  | some b =>
    if su.topActive ≤ sy ∧ sy ≤ su.bottomActive then
      some ((su.buf b).base.toNat + physicalRow d su.scrollActive sy * d.pitchBytes + o % d.pitchBytes)
    else none

/-- Memory bytes gathered into parts (R128). Each byte comes with its display row; `cur` is the part being formed with its
row, `pos` the byte's place in the read. -/
def gatherParts (cur : Option (Part × Nat)) (pos : Nat) : List (Nat × Option Nat) → List Part
  | [] => (cur.map Prod.fst).toList
  | (_, none) :: xs => (cur.map Prod.fst).toList ++ gatherParts none (pos + 1) xs
  | (row, some a) :: xs =>
    match cur with
    | some (p, r) =>
      if r = row ∧ a % 4096 ≠ 0 then gatherParts (some ({ p with len := p.len + 1 }, r)) (pos + 1) xs
      else p :: gatherParts (some ({ addr := a, len := 1, pos := pos }, row)) (pos + 1) xs
    | none => gatherParts (some ({ addr := a, len := 1, pos := pos }, row)) (pos + 1) xs

/-- The parts of a scanout read whose first byte lies at aperture offset `first` (R128). -/
def Surface.scanParts (su : Surface) (first len : Nat) : List Part :=
  gatherParts none 0 ((List.range' first len).map (fun o => (o / su.desc.pitchBytes, su.scanByte o)))

/-- The data area of a scanout read at acceptance: the blank bytes in place (R17, R127). The places of memory bytes hold zeros,
which is the model's choice (DESIGN CHOICE, log 26); their parts write them before any answer carries them. -/
def Surface.scanData (su : Surface) (first len : Nat) : List Byte :=
  (List.range' first len).map (fun o =>
    if (su.scanByte o).isNone then su.desc.blankByte (o % su.desc.pitchBytes) else 0)

/-- A dropped part of a scanout read is counted out of its target (R11). -/
def Fabric.dropScanParts (f : Fabric) (e : ScanEntry) : Fabric :=
  match e.target with
  | some b => f.modBuf e.surface b (fun r => { r with scanReads := r.scanReads - e.parts.length })
  | none => f

/-- A scanout entry is dropped by DETACH or soft reset: its parts not issued are counted out, and its record takes ABORTED
(R11, R18, R131). -/
def Fabric.dropScan (f : Fabric) (e : ScanEntry) : Fabric := (f.dropScanParts e).dropRest e.id

/-- The scanout reads of surface `i` leave the queue; the entries of other surfaces keep their order (R11, R16). -/
def Fabric.dropScansOf (f : Fabric) (p : ScanEntry → Bool) : Fabric :=
  let f' := (f.scanQ.filter p).foldl Fabric.dropScan f
  { f' with scanQ := f.scanQ.filter (fun e => !p e) }

end Sys2Proof.Machine
end

