-- ==== Sys2Proof/Machine/Lane.lean ====
section
/-! DEFINITION. The surface lanes: what the lane head does at once, from asking for a buffer to leaving the lane (R12 to
R15, R66, R79, R89, R93, R145), and the settling of the whole fabric after an event (log 1). -/

namespace Sys2Proof.Machine

/-! ## The head asks, is mapped, and is bound -/

/-- The head is mapped into buffer `b` (R46, R79). -/
def Fabric.mapInto (f : Fabric) (i : Fin 8) (b : Nat) (q : LaneReq) : Fabric :=
  f.modSurf i (fun su => { su with head := .mapped (su.mapHead b q.req) })

/-- The head asks for a buffer and is mapped, or waits (R89, R93). -/
def Fabric.askBuffer (f : Fabric) (env : Env) (i : Fin 8) (q : LaneReq) : Fabric :=
  match (f.surf i).filling with
  | some b => f.mapInto i b q
  | none =>
    match f.obtainBuffer env i with
    | some (b, g) => g.mapInto i b q
    | none => f.modSurf i (fun su => { su with head := .waiting })

/-- A waiting head is served when a buffer of its surface is FREE (R93). -/
def Fabric.serveWaiting (f : Fabric) (env : Env) (i : Fin 8) (q : LaneReq) : Fabric :=
  match (f.surf i).chooseFree with
  | some b => (f.openBuffer env i b).mapInto i b q
  | none => f

/-- The stripe condition of R13: each touched stripe is DONE in the job of the head's buffer or outside its copy set
(R145). -/
def Fabric.stripesDone (f : Fabric) (i : Fin 8) (m : Mapping) : Bool :=
  match f.jobOf i m.buf with
  | none => true
  | some j => m.stripes.all (fun k => j.stateOf k == none || j.stateOf k == some .done)

/-- A head that may be bound or may claim its first part: its stripes are done and no merge is outstanding (R13, R66,
R79). -/
def Fabric.headReady (f : Fabric) (i : Fin 8) (m : Mapping) : Bool :=
  f.stripesDone i m && !(f.surf i).mergeOutstanding

/-- The commitment of a STREAM head (R79): the cursor and the slot take what the mapping gives, and a wrap is taken as a
close trigger behind the now bound head (R78, R95). -/
def Surface.commitStream (su : Surface) (p : StreamPlan) : Surface :=
  { su with
    slot := p.slotAfter
    latch := su.latch.map (fun l => { l with stream := l.stream.map (fun s => { s with cx := p.cx, cy := p.cy }) })
    closePending := su.closePending || p.wraps }

/-- A mapped head becomes bound as soon as it can: a DIRECT head when the converter may handle its first pixel (R89), a
STREAM head without parts when it leaves the lane (R79). A STREAM head with parts is bound when its first part is issued. -/
def Fabric.bindHead (f : Fabric) (i : Fin 8) (m : Mapping) : Fabric :=
  if f.headReady i m then
    match m.plan with
    | .direct ps => f.modSurf i (fun su => { su with head := .bound { buf := m.buf, issued := false, todo := ps, parts := [] } })
    | .stream p =>
      if p.runs = [] then
        f.modSurf i (fun su => { su.commitStream p with head := .bound { buf := m.buf, issued := false, todo := [], parts := [] } })
      else f
  else f

/-! ## The converter works on a bound head -/

/-- The converter handles the bound head's pixels until a part is formed, a merge is outstanding, or none is left (R66). -/
def Fabric.handleHead (f : Fabric) (i : Fin 8) (q : LaneReq) (bd : Binding) : Fabric :=
  if bd.parts ≠ [] ∨ bd.todo = [] ∨ (f.surf i).mergeOutstanding = true then f
  else
    let h := match q.req.kind with
      | .write => handleWrite bd.buf (f.surf i).slot [] bd.todo
      | .read => handleRead bd.buf (f.surf i).slot [] bd.todo
    let f := match h.spilled with
      | some t => f.createMerge i t
      | none => f
    f.modSurf i (fun su =>
      { su with slot := h.slot, head := .bound { bd with todo := h.todo, parts := h.part.toList } })

/-- The bound head leaves the lane when it has no part to issue and no pixel to handle: its record is marked, a pending
close applies, and the lane's next request becomes head (R12, R14, R95). -/
def Fabric.leaveLane (f : Fabric) (env : Env) (i : Fin 8) (q : LaneReq) : Fabric :=
  let f := f.modSurf i (fun su => { su with lane := su.lane.tail, head := .fresh })
  let f := f.markDone q.id
  if (f.surf i).closePending then
    match (f.surf i).filling with
    | some b => f.applyClose env i b
    | none => f.modSurf i (fun su => { su with closePending := false })
  else f

/-- One go over the lane head: each stage is taken as soon as its conditions hold. -/
def Fabric.stepHead (f : Fabric) (env : Env) (i : Fin 8) (q : LaneReq) : Fabric :=
  let f := match (f.surf i).head with
    | .fresh => f.askBuffer env i q
    | .waiting => f.serveWaiting env i q
    | _ => f
  let f := match (f.surf i).head with
    | .mapped m => f.bindHead i m
    | _ => f
  let f := match (f.surf i).head with
    | .bound bd => f.handleHead i q bd
    | _ => f
  match (f.surf i).head with
  | .bound bd => if bd.parts = [] ∧ bd.todo = [] then f.leaveLane env i q else f
  | _ => f

/-- The lane of an ATTACHED surface moves on, head by head, until a head waits: at most as many goes as it has requests. -/
def Fabric.runLane (env : Env) (i : Fin 8) : Nat → Fabric → Fabric
  | 0, f => f
  | n + 1, f =>
    if (f.surf i).life = .attached then
      match (f.surf i).lane with
      | q :: _ => Fabric.runLane env i n (f.stepHead env i q)
      | [] => f
    else f

/-- A merge claim is presented when it becomes ready: it takes the next stamp (R156, R157). -/
def Fabric.presentMerge (f : Fabric) (i : Fin 8) : Fabric :=
  match (f.surf i).mergeClaim with
  | some m =>
    if m.presented.isNone then
      { f with nextStamp := f.nextStamp + 1 }.modSurf i (fun su =>
        su.modMerge m.id (fun q => { q with presented := some f.nextStamp }))
    else f
  | none => f

/-- What the lane and the converter of one surface do at once after an event. -/
def Fabric.settleSurface (env : Env) (f : Fabric) (i : Fin 8) : Fabric :=
  (Fabric.runLane env i ((f.surf i).lane.length + 1) f).presentMerge i

/-- Scanout heads without parts leave the queue, answered OKAY with their blank bytes (R11); one go per entry. -/
def Fabric.leaveScans : Nat → Fabric → Fabric
  | 0, f => f
  | n + 1, f =>
    match f.scanQ with
    | e :: es => if e.parts = [] then Fabric.leaveScans n ({ f with scanQ := es }.markDone e.id) else f
    | [] => f

/-- The fabric settles: lanes, then scanout heads, then the copy engine do what they do at once (log 1, log 15). -/
def Fabric.settle (f : Fabric) (env : Env) : Fabric :=
  let f := allSurfaces.foldl (Fabric.settleSurface env) f
  Fabric.runEngine 5 (Fabric.leaveScans f.scanQ.length f)

end Sys2Proof.Machine
end

