-- ==== Sys2Proof/Machine/Intake.lean ====
section
/-! DEFINITION. The request intake: classification (R2, R7), refusals (R8), acceptance into the queues and lanes (R6, R10
to R12), and the acceptance of requests that wait on the link (R6, log 5). -/

namespace Sys2Proof.Machine

/-! ## Capacities -/

/-- Pass-through requests in the queue (R6, R10). -/
def passRoom : Nat := 16

/-- Scanout reads in the queue (R6, R11). -/
def scanRoom : Nat := 8

/-- Producer requests in a lane (R12). -/
def laneRoom : Nat := 8

/-! ## Classification -/

/-- A packet whose length is 0 or above 256, or whose last byte lies above the 40-bit address space (R2). -/
def malformed (r : UpRequest) : Bool :=
  r.len == 0 || decide (256 < r.len) || decide (2 ^ 40 < r.addr.toNat + r.len)

/-- Whether a request's span meets the surface's aperture. -/
def Surface.meets (su : Surface) (r : UpRequest) : Bool :=
  decide (r.addr.toNat < su.desc.apStart + su.desc.apSize) && decide (su.desc.apStart < r.addr.toNat + r.len)

/-- Whether a request's span lies wholly inside the surface's aperture. -/
def Surface.holdsSpan (su : Surface) (r : UpRequest) : Bool :=
  decide (su.desc.apStart ≤ r.addr.toNat) && decide (r.addr.toNat + r.len ≤ su.desc.apStart + su.desc.apSize)

/-- The live surfaces whose apertures a request's span meets (R7). -/
def Fabric.met (f : Fabric) (r : UpRequest) : List (Fin 8) :=
  allSurfaces.filter (fun i => (f.surf i).life.live && (f.surf i).meets r)

/-- The scanout source of the surface's pipe as the pipe table holds it (R7). -/
def Env.scanSource (env : Env) (su : Surface) : BitVec 6 := (env.pipes.get su.desc.pipeIndex).source

/-- The class of a request against the surface table and the pipe table as they stand (R2, R7). -/
def Fabric.classify (f : Fabric) (env : Env) (r : UpRequest) : RequestClass :=
  if malformed r then .malformed
  else
    match f.met r with
    | [] => .passThrough
    | [i] =>
      if (f.surf i).holdsSpan r = false then .refused
      else if r.source = env.scanSource (f.surf i) then
        match r.kind with
        | .read => .scanout i
        | .write => .refused
      else .producer i
    | _ => .refused

/-- The checks that refuse a producer request at acceptance (R8, R75). -/
def Surface.refusesProducer (su : Surface) (r : UpRequest) : Bool :=
  if su.life = .detaching then true
  else if su.desc.isStream then
    match r.kind with
    | .read => true
    | .write => !((r.bytes.take r.len).length == r.len && (r.bytes.take r.len).all (·.enabled))
  else
    decide (su.desc.w * su.desc.h * su.desc.bpp < r.addr.toNat - su.desc.apStart + r.len)
      || (decide (r.kind = .read) && decide (su.desc.fmt = .f8))

/-- Whether the intake may accept a request now (R6). -/
def Fabric.mayAccept (f : Fabric) (env : Env) (r : UpRequest) : Bool :=
  env.running &&
    match f.classify env r with
    | .passThrough => decide (f.passQ.length < passRoom)
    | .scanout _ => decide (f.scanQ.length < scanRoom)
    | _ => true

/-! ## Acceptance -/

/-- A response record is opened (R17); the acceptance number names it. -/
def Fabric.openRecord (f : Fabric) (r : UpRequest) (data : List Byte) : Fabric :=
  let rec' : RespRecord :=
    { id := f.nextId, tag := r.tag, kind := r.kind, issued := 0, mark := false, worst := .okay, data := data }
  { f with records := f.records ++ [rec'], nextId := f.nextId + 1 }

/-- The data area of a READ, before its parts have written it. The zeros are the model's choice (DESIGN CHOICE, log 26): the
spec gives the blank bytes of a scanout read alone (R17), and no zero leaves the part, since only OKAY carries the data area and
then every byte of it has been written. -/
def emptyArea (r : UpRequest) : List Byte :=
  match r.kind with
  | .read => List.replicate r.len 0
  | .write => []

/-- The one or two parts of a pass-through request, cut at a 4096-byte boundary (R10). -/
def passParts (r : UpRequest) : List Part :=
  let room := 4096 - r.addr.toNat % 4096
  if r.len ≤ room then [{ addr := r.addr.toNat, len := r.len, pos := 0 }]
  else [{ addr := r.addr.toNat, len := room, pos := 0 },
        { addr := r.addr.toNat + room, len := r.len - room, pos := room }]

/-- A request answered at acceptance (R2, R8, R12). -/
def Fabric.answerAtOnce (f : Fabric) (r : UpRequest) (code : UpCode) : Fabric :=
  f.send { tag := r.tag, code := code, data := [] }

/-- A pass-through request joins the tail of its queue (R10). -/
def Fabric.acceptPass (f : Fabric) (r : UpRequest) : Fabric :=
  let e : PassEntry := { id := f.nextId, req := r, parts := passParts r, started := false }
  Fabric.openRecord { f with passQ := f.passQ ++ [e] } r (emptyArea r)

/-- A scanout read is resolved and joins the scanout queue, and its target's count rises by its parts (R11, R125). -/
def Fabric.acceptScan (f : Fabric) (i : Fin 8) (r : UpRequest) : Fabric :=
  let su := f.surf i
  let first := r.addr.toNat - su.desc.apStart
  let parts := su.scanParts first r.len
  let e : ScanEntry :=
    { id := f.nextId, source := r.source, surface := i, target := if parts = [] then none else su.scanTarget,
      parts := parts, started := false }
  let f := match e.target with
    | some b => f.modBuf i b (fun q => { q with scanReads := q.scanReads + parts.length })
    | none => f
  Fabric.openRecord { f with scanQ := f.scanQ ++ [e] } r (su.scanData first r.len)

/-- A producer request is refused, answered RETRY, or joins its lane (R8, R12). -/
def Fabric.acceptProducer (f : Fabric) (i : Fin 8) (r : UpRequest) : Fabric :=
  if (f.surf i).refusesProducer r then f.answerAtOnce r .refused
  else if laneRoom ≤ (f.surf i).lane.length then f.answerAtOnce r .retry
  else
    (f.modSurf i (fun su => { su with lane := su.lane ++ [{ id := f.nextId, req := r }] })).openRecord r (emptyArea r)

/-- The intake accepts a request (R6 to R8). -/
def Fabric.accept (f : Fabric) (env : Env) (r : UpRequest) : Fabric :=
  match f.classify env r with
  | .malformed => f.answerAtOnce r .refused
  | .refused => f.answerAtOnce r .refused
  | .passThrough => f.acceptPass r
  | .scanout i => f.acceptScan i r
  | .producer i => f.acceptProducer i r

/-- The intake accepts the offered requests in link order while the oldest may be accepted (R6); each acceptance settles
before the next. -/
def Fabric.pump (env : Env) : List UpRequest → Fabric → Fabric
  | [], f => { f with offered := [] }
  | r :: rs, f =>
    if f.mayAccept env r then Fabric.pump env rs ((f.accept env r).settle env) else { f with offered := r :: rs }

/-- What the part does at once after an event: the fabric settles, and the intake accepts what it may. -/
def Fabric.finish (f : Fabric) (env : Env) : Fabric :=
  let f := f.settle env
  Fabric.pump env f.offered f

/-- A request is offered at the tail of the upstream link (R6). -/
def Fabric.offer (f : Fabric) (r : UpRequest) : Fabric := { f with offered := f.offered ++ [r] }

/-! ## At the whole part -/

/-- What the fabric reads of the part. -/
def State.env (s : State) : Env :=
  { now := s.timebase, running := decide (s.device = .running), pipes := s.pipes }

/-- The part with its fabric changed by `g`. -/
def State.onFabric (s : State) (g : Env → Fabric → Fabric) : State := { s with fab := g s.env s.fab }

/-- The part after what it does at once (R6, log 1). -/
def State.finish (s : State) : State := s.onFabric (fun env f => f.finish env)

end Sys2Proof.Machine
end

