-- ==== Sys2Proof/Machine/TagUnit.lean ====
section
/-! DEFINITION. The tag unit: claims and the grant arbiter (R156 to R158), completion (R159, R160), the response limit and
quarantine (R161 to R163), and the end of RESETTING (R186). -/

namespace Sys2Proof.Machine

/-! ## The tag table -/

/-- The tags in increasing number. -/
def allTags : List (Fin 32) := List.finRange 32

/-- The entry of a tag. -/
def State.tag (s : State) (t : Fin 32) : TagEntry := s.tags.get t

/-- The entry of a tag set. -/
def State.setTag (s : State) (t : Fin 32) (e : TagEntry) : State := { s with tags := s.tags.set t.val e t.isLt }

/-- A tag entry is FREE. -/
def TagEntry.isFree (e : TagEntry) : Bool := decide (e.st = .free)

/-- A tag entry is ISSUED. -/
def TagEntry.isIssued (e : TagEntry) : Bool := decide (e.st = .issued)

/-- A tag entry is QUARANTINED. -/
def TagEntry.isQuarantined (e : TagEntry) : Bool := decide (e.st = .quarantined)

/-- An ISSUED tag of the copy engine (R157). -/
def TagEntry.isCopyIssued (e : TagEntry) : Bool :=
  e.isIssued && (decide (e.kind = .copyRead) || decide (e.kind = .copyWrite))

/-- The number of FREE tags. -/
def State.freeTags (s : State) : Nat := countTags s.tags TagEntry.isFree

/-- The number of ISSUED tags of the copy engine. -/
def State.copyIssued (s : State) : Nat := countTags s.tags TagEntry.isCopyIssued

/-- The FREE tag with the lowest number (R157). -/
def State.lowestFree (s : State) : Option (Fin 32) := allTags.find? (fun t => (s.tag t).isFree)

/-! ## Claims (R156) -/

/-- The part that the head of a lane that is not empty claims a tag for, with its buffer: a formed part of a bound head, or the
first part of a mapped STREAM head whose stripes are done, while no merge is outstanding (R13, R79). -/
def Fabric.lanePart (f : Fabric) (i : Fin 8) : Option (Nat × Run) :=
  if (f.surf i).lane = [] then none
  else
    match (f.surf i).head with
    | .bound bd =>
      match bd.parts with
      | run :: _ => if (f.surf i).mergeOutstanding then none else some (bd.buf, run)
      | [] => none
    | .mapped m =>
      match m.plan with
      | .stream p =>
        match p.runs with
        | run :: _ => if f.headReady i m then some (m.buf, run) else none
        | [] => none
      | .direct _ => none
    | _ => none

/-- The scanout queue head's next part, if it has one (R129). -/
def Fabric.scanPart (f : Fabric) : Option (ScanEntry × Part) :=
  match f.scanQ with
  | e :: _ =>
    match e.parts with
    | p :: _ => some (e, p)
    | [] => none
  | [] => none

/-- The pass-through queue head's first part not issued (R10). -/
def Fabric.passPart (f : Fabric) : Option (PassEntry × Part) :=
  match f.passQ with
  | e :: _ =>
    match e.parts with
    | p :: _ => some (e, p)
    | [] => none
  | [] => none

/-- The chunk that the copy engine claims a tag for: the oldest HOLDING chunk's write, else the oldest waiting read
(R142, R156, log 12). -/
def Fabric.copyChunk (f : Fabric) : Option Chunk :=
  (f.copy.slots.find? (fun ch => decide (ch.phase = .holding))).or
    (f.copy.slots.find? (fun ch => decide (ch.phase = .waiting)))

/-- The claim presented earliest of a list of stamped claims. -/
def earliest : List (Nat × Claim) → Option (Nat × Claim)
  | [] => none
  | c :: cs =>
    match earliest cs with
    | none => some c
    | some k => if c.1 ≤ k.1 then some c else some k

/-- The merge claims with the moments of their presentation (R157). -/
def Fabric.mergeClaims (f : Fabric) : List (Nat × Claim) :=
  allSurfaces.filterMap (fun i => (f.surf i).mergeClaim.map (fun m => (m.presented.getD f.nextStamp, .merge i)))

/-- The intake claims with the acceptance numbers of their requests (R157). -/
def Fabric.intakeClaims (f : Fabric) : List (Nat × Claim) :=
  (f.passPart.map (fun p => (p.1.id, Claim.pass))).toList ++
    allSurfaces.filterMap (fun i => if (f.lanePart i).isSome then some (f.headId i, .lane i) else none)

/-- The claim that the arbiter grants next (R157): the scanout claim may take any FREE tag; every other claim only while
more than 4 tags are FREE, merges first, then the copy claim while the engine holds fewer than 2 tags, then the intake
claims, then the copy claim while it holds fewer than 4. -/
def State.bestClaim (s : State) : Option Claim :=
  let f := s.fab
  if s.freeTags = 0 then none
  else if f.scanPart.isSome then some .scanout
  else if s.freeTags ≤ 4 then none
  else
    let copy := f.copyChunk.isSome
    match earliest f.mergeClaims with
    | some c => some c.2
    | none =>
      if copy = true ∧ s.copyIssued < 2 then some .copy
      else
        match earliest f.intakeClaims with
        | some c => some c.2
        | none => if copy = true ∧ s.copyIssued < 4 then some .copy else none

/-! ## Issue (R4, R158) -/

/-- An access leaves under a tag: the entry is filled and the request is placed on the downstream link (R4, R158). -/
def State.issueAccess (s : State) (t : Fin 32) (a : Access) : State :=
  let e : TagEntry :=
    { st := .issued, kind := a.kind, upRef := a.upRef, surface := a.surface, buffer := a.buffer,
      pipe := a.surface.map (fun i => (s.fab.surf i).desc.pipe.toNat), stripe := a.stripe, issueTime := s.timebase,
      route := a.route }
  let r : DownRequest :=
    { source := a.source, kind := a.down, addr := BitVec.ofNat 40 a.addr, len := a.len, tag := t, bytes := a.bytes }
  { s.setTag t e with issued := s.issued ++ [r] }

/-- Stored bytes with every enable set. -/
def fullBytes (l : List Byte) : List DataByte := l.map (fun b => { value := b, enabled := true })

/-- The bytes of a WRITE request's part, with the upstream enables (R4). -/
def partBytes (r : UpRequest) (p : Part) : List DataByte := (r.bytes.drop p.pos).take p.len

/-- The access that a claim asks for (R4, R156). -/
def State.accessOf (s : State) : Claim → Option Access
  | .scanout =>
    s.fab.scanPart.map (fun x =>
      { kind := .scanoutRead, upRef := some x.1.id, surface := some x.1.surface, buffer := x.1.target, stripe := none,
        route := .bytes x.2.pos x.2.len, source := x.1.source, down := .read, addr := x.2.addr, len := x.2.len,
        bytes := [] })
  | .pass =>
    s.fab.passPart.map (fun x =>
      { kind := .pass, upRef := some x.1.id, surface := none, buffer := none, stripe := none,
        route := match x.1.req.kind with
          | .read => .bytes x.2.pos x.2.len
          | .write => .nowhere
        source := x.1.req.source, down := x.1.req.kind, addr := x.2.addr, len := x.2.len,
        bytes := match x.1.req.kind with
          | .read => []
          | .write => partBytes x.1.req x.2 })
  | .merge i =>
    (s.fab.surf i).mergeClaim.map (fun m =>
      match m.formed with
      | some px =>
        { kind := .mergeWrite, upRef := none, surface := some i, buffer := some m.buf, stripe := none,
          route := .merge m.id, source := 0, down := .write, addr := m.addr, len := 4, bytes := fullBytes px }
      | none =>
        { kind := .mergeRead, upRef := none, surface := some i, buffer := some m.buf, stripe := none,
          route := .merge m.id, source := 0, down := .read, addr := m.addr, len := 4, bytes := [] })
  | .copy =>
    s.fab.copyChunk.map (fun ch =>
      if ch.phase = .holding then
        { kind := .copyWrite, upRef := none, surface := some ch.surface, buffer := some ch.target,
          stripe := some ch.stripe, route := .chunk ch.id, source := 0, down := .write, addr := ch.tgtAddr,
          len := ch.len, bytes := fullBytes ch.data }
      else
        { kind := .copyRead, upRef := none, surface := some ch.surface, buffer := some ch.source,
          stripe := some ch.stripe, route := .chunk ch.id, source := 0, down := .read, addr := ch.srcAddr,
          len := ch.len, bytes := [] })
  | .lane i =>
    match (s.fab.surf i).lane, s.fab.lanePart i with
    | q :: _, some (b, run) =>
      let d := (s.fab.surf i).desc
      let addr := (run.head?.map (·.addr)).getD 0
      some (match q.req.kind with
        | .write =>
          { kind := .producerWrite, upRef := some q.id, surface := some i, buffer := some b, stripe := none,
            route := .nowhere, source := q.req.source, down := .write, addr := addr, len := 4 * run.length,
            bytes := fullBytes (run.flatMap (fun p => forward s.tables d p.bytes)) }
        | .read =>
          { kind := .producerRead, upRef := some q.id, surface := some i, buffer := some b, stripe := none,
            route := .pixels (run.map (·.px)) (q.req.addr.toNat - d.apStart), source := q.req.source, down := .read,
            addr := addr, len := 4 * run.length, bytes := [] })
    | _, _ => none

/-! ## What the owner learns at the issue (R86, R155, R158) -/

/-- The scanout head's part has been issued; with its last part the head leaves the queue (R11). -/
def Fabric.learnScan (f : Fabric) : Fabric :=
  match f.scanQ with
  | e :: es =>
    let f := f.partIssued e.id
    if e.parts.tail = [] then { f with scanQ := es }.markDone e.id
    else { f with scanQ := { e with parts := e.parts.tail, started := true } :: es }
  | [] => f

/-- The pass-through head's part has been issued; with its last part the head leaves the queue (R10). -/
def Fabric.learnPass (f : Fabric) : Fabric :=
  match f.passQ with
  | e :: es =>
    let f := f.partIssued e.id
    if e.parts.tail = [] then { f with passQ := es }.markDone e.id
    else { f with passQ := { e with parts := e.parts.tail, started := true } :: es }
  | [] => f

/-- A merge's read or write has been issued; the write adds its stripe and sets the touched flag (R51, R52, R67, R68). -/
def Surface.learnMerge (su : Surface) (m : Merge) : Surface :=
  match m.st with
  | .waiting => su.modMerge m.id (fun q => { q with st := .reading, presented := none })
  | _ =>
    let k := stripeOfAddr su.desc (su.buf m.buf).base.toNat m.addr
    (su.modMerge m.id (fun q => { q with st := .writing, presented := none })).modBuf m.buf
      (fun r => { r with written := addStripe k r.written, touched := true })

/-- A chunk changed by `g`. -/
def Fabric.modChunk (f : Fabric) (id : Nat) (g : Chunk → Chunk) : Fabric :=
  { f with copy := { f.copy with slots := f.copy.slots.map (fun ch => if ch.id = id then g ch else ch) } }

/-- A chunk's read or write has been issued, and the copy count of its source or target rises (R142 to R144). -/
def Fabric.learnChunk (f : Fabric) (ch : Chunk) : Fabric :=
  if ch.phase = .holding then
    (f.modChunk ch.id (fun q => { q with phase := .writing })).modBuf ch.surface ch.target
      (fun r => { r with copyWrites := r.copyWrites + 1 })
  else
    (f.modChunk ch.id (fun q => { q with phase := .reading })).modBuf ch.surface ch.source
      (fun r => { r with copyReads := r.copyReads + 1 })

/-- The lane head advances to its next part; a STREAM head's first issue commits its mapping (R79, R89). -/
def Surface.advanceHead (su : Surface) : Surface :=
  match su.head with
  | .bound bd => { su with head := .bound { bd with issued := true, parts := bd.parts.tail } }
  | .mapped m =>
    match m.plan with
    | .stream p =>
      { su.commitStream p with head := .bound { buf := m.buf, issued := true, todo := [], parts := p.runs.tail } }
    | .direct _ => su
  | _ => su

/-- A producer part has been issued into buffer `b`: its count rises, a WRITE adds its stripes and sets the touched flag, and
the head advances (R51, R52, R86). -/
def Fabric.learnLane (f : Fabric) (i : Fin 8) (q : LaneReq) (b : Nat) (run : Run) : Fabric :=
  let f := f.partIssued q.id
  f.modSurf i (fun su => (su.modBuf b (fun r =>
    match q.req.kind with
    | .write =>
      { r with prodWrites := r.prodWrites + 1, written := addStripes (run.map (·.stripe)) r.written, touched := true }
    | .read => { r with prodReads := r.prodReads + 1 })).advanceHead)

/-- The owner learns of the issue at once (R158). -/
def Fabric.learn (f : Fabric) : Claim → Fabric
  | .scanout => f.learnScan
  | .pass => f.learnPass
  | .merge i =>
    match (f.surf i).mergeClaim with
    | some m => f.modSurf i (fun su => su.learnMerge m)
    | none => f
  | .copy =>
    match f.copyChunk with
    | some ch => f.learnChunk ch
    | none => f
  | .lane i =>
    match (f.surf i).lane, f.lanePart i with
    | q :: _, some (b, run) => f.learnLane i q b run
    | _, _ => f

/-- A grant: the lowest FREE tag goes to a claim, and its access is issued at once (R157, R158). -/
def State.grantTo (s : State) (t : Fin 32) (c : Claim) : State :=
  match s.accessOf c with
  | none => s
  | some a => { s.issueAccess t a with fab := s.fab.learn c }

/-- One decision of the arbiter (R157, R158). -/
def State.arbitrate (s : State) : State :=
  match s.bestClaim, s.lowestFree with
  | some c, some t => s.grantTo t c
  | _, _ => s

/-! ## Completion (R159, R160, R162) -/

/-- The result that a response record takes (R5). -/
def AccessEnd.worst : AccessEnd → Worst
  | .okay _ => .okay
  | .error => .fault
  | .timeout => .timeout

/-- Whether the access failed. -/
def AccessEnd.failed : AccessEnd → Bool
  | .okay _ => false
  | _ => true

/-- The pixel index of a placed pixel of a READ; a STREAM surface has no READs (R8). -/
def PixelRef.indexOf : PixelRef → Nat
  | .index i => i
  | .pos _ _ => 0

/-- One producer pixel's bytes placed in a READ's data area, those that lie in the span (R72). -/
def writePixel (first bpp i : Nat) (area : List Byte) (px : List Byte) : List Byte :=
  (px.zipIdx).foldl (fun acc x => if first ≤ i * bpp + x.2 then acc.set (i * bpp + x.2 - first) x.1 else acc) area

/-- The stored pixels of a READ part, reverse-converted into the data area (R72). -/
def writePixels (d : Descriptor) (first : Nat) : List PixelRef → List Byte → List Byte → List Byte
  | [], _, area => area
  | p :: ps, stored, area =>
    writePixels d first ps (stored.drop 4) (writePixel first d.bpp p.indexOf area (reverse d (stored.take 4)))

/-- What the data of an access does to the data area of its record (R17, R72). -/
def Fabric.areaWriter (f : Fabric) (e : TagEntry) (res : AccessEnd) : List Byte → List Byte :=
  match res, e.route with
  | .okay data, .bytes pos _ => fun area => writeAt area pos data
  | .okay data, .pixels refs first => fun area =>
    match e.surface with
    | some i => writePixels (f.surf i).desc first refs data area
    | none => area
  | _, _ => id

/-- The end of a merge's read or write at the converter (R68, R70, R71). -/
def Surface.mergeEnded (su : Surface) (t : Tables) (id : Nat) (res : AccessEnd) : Surface :=
  match su.merges.find? (fun m => m.id == id) with
  | none => su
  | some m =>
    match m.st, res with
    | .reading, .okay data =>
      if m.noWrite then su.endMerge m
      else su.modMerge id (fun q => { q with formed := some (mergedPixel t su.desc m.bytes data) })
    | _, _ => su.endMerge m

/-- Step 1 of a completion: the result reaches its owner (R5, R155, R159); a copy's chunk is moved on after the counts. -/
def Fabric.deliver (f : Fabric) (t : Tables) (e : TagEntry) (res : AccessEnd) : Fabric :=
  match e.kind with
  | .pass | .producerWrite | .producerRead | .scanoutRead =>
    match e.upRef with
    | some id => f.partEnded id res.worst (f.areaWriter e res)
    | none => f
  | .mergeRead | .mergeWrite =>
    match e.surface, e.route with
    | some i, .merge id => f.modSurf i (fun su => su.mergeEnded t id res)
    | _, _ => f
  | .copyRead | .copyWrite => f

/-- The chunk that a copy access belongs to. -/
def Fabric.chunkOf (f : Fabric) (e : TagEntry) : Option Chunk :=
  match e.route with
  | .chunk id => f.copy.slots.find? (fun ch => ch.id == id)
  | _ => none

/-- The buffer whose damaged flag a failed access sets (R160): the one named, and for a copy the chunk's target. -/
def Fabric.damagedBuffer (f : Fabric) (e : TagEntry) : Option Nat :=
  match e.kind with
  | .producerWrite | .mergeRead | .mergeWrite => e.buffer
  | .copyRead | .copyWrite => (f.chunkOf e).map (·.target)
  | .pass | .producerRead | .scanoutRead => none

/-- The content sequence of the buffer that an entry names, 0 for NONE and for PASS (R165). -/
def Fabric.entrySeq (f : Fabric) (e : TagEntry) : Nat :=
  match e.surface, e.buffer with
  | some i, some b => ((f.surf i).buf b).content
  | _, _ => 0

/-- A record that names a tag (R165). -/
def Fabric.logTag (f : Fabric) (env : Env) (kind : EventKind) (e : TagEntry) (t : Fin 32) (seq : Nat) : Fabric :=
  f.log env kind (e.surface.map (·.val)) e.pipe e.buffer seq t.val

/-- The record of a failed access: TAG_TIMEOUT for an expiry of any kind; for an ERROR, WRITE_FAULT or READ_FAULT by the owner
kind, and none for PASS and copies (R160, R162, R165). -/
def Fabric.logFailure (f : Fabric) (env : Env) (e : TagEntry) (t : Fin 32) (res : AccessEnd) : Fabric :=
  match res, e.kind with
  | .okay _, _ => f
  | .timeout, _ => f.logTag env .tagTimeout e t (f.entrySeq e)
  | .error, .producerWrite | .error, .mergeRead | .error, .mergeWrite => f.logTag env .writeFault e t (f.entrySeq e)
  | .error, .producerRead | .error, .scanoutRead => f.logTag env .readFault e t (f.entrySeq e)
  | .error, _ => f

/-- Step 2 of a completion: the effects of an ERROR or an expiry, with their records (R160, R162). -/
def Fabric.failureEffects (f : Fabric) (env : Env) (e : TagEntry) (t : Fin 32) (res : AccessEnd) : Fabric :=
  if res.failed then
    let f := match e.surface, f.damagedBuffer e with
      | some i, some b => f.modBuf i b (fun r => { r with damaged := true })
      | _, _ => f
    let f := f.logFailure env e t res
    match e.kind, f.chunkOf e with
    | .copyRead, some ch | .copyWrite, some ch => f.copyFault env ch
    | _, _ => f
  else f

/-- The buffer count that the owner kind holds falls by 1 (R86, R155); a merge's count belongs to the merge. -/
def BufRec.countDown (r : BufRec) : OwnerKind → BufRec
  | .producerWrite => { r with prodWrites := r.prodWrites - 1 }
  | .producerRead => { r with prodReads := r.prodReads - 1 }
  | .scanoutRead => { r with scanReads := r.scanReads - 1 }
  | .copyRead => { r with copyReads := r.copyReads - 1 }
  | .copyWrite => { r with copyWrites := r.copyWrites - 1 }
  | .pass | .mergeRead | .mergeWrite => r

/-- Step 3 of a completion: the count that the access holds is lowered. -/
def Fabric.countDown (f : Fabric) (e : TagEntry) : Fabric :=
  match e.surface, e.buffer with
  | some i, some b => f.modBuf i b (fun r => r.countDown e.kind)
  | _, _ => f

/-- A chunk moves on when its access ends: a read answered OKAY makes it HOLDING; a failed read, an orphan's read and any
write end it (R143, R144, R147, R148). -/
def Fabric.chunkEnded (f : Fabric) (e : TagEntry) (res : AccessEnd) : Fabric :=
  match e.kind, f.chunkOf e with
  | .copyRead, some ch =>
    match res with
    | .okay data =>
      if ch.orphan then f.endChunk ch else f.modChunk ch.id (fun q => { q with phase := .holding, data := data })
    | _ => f.endChunk ch
  | .copyWrite, some ch => f.endChunk ch
  | _, _ => f

/-- A tag's access ends: delivery, failure effects, counts, then the tests of the buffers (R159, R162). -/
def Fabric.complete (f : Fabric) (env : Env) (tb : Tables) (e : TagEntry) (t : Fin 32) (res : AccessEnd) : Fabric :=
  let f := f.deliver tb e res
  let f := f.failureEffects env e t res
  let f := f.countDown e
  let f := f.chunkEnded e res
  match e.surface with
  | some i => f.bufferTests env i
  | none => f

/-! ## Responses, expiries, and the end of RESETTING -/

/-- When no tag is ISSUED while the device is RESETTING, it becomes RUNNING and RESET_DONE is appended (R186). -/
def State.endReset (s : State) : State :=
  if s.device = .resetting ∧ countTags s.tags TagEntry.isIssued = 0 then
    { s with device := .running, fab := s.fab.log s.env .resetDone none none none 0 0 }
  else s

/-- How many bytes an access's READ asked for. -/
def Route.length : Route → Nat
  | .nowhere => 0
  | .bytes _ n => n
  | .pixels refs _ => 4 * refs.length
  | .merge _ => 4
  | .chunk _ => 0

/-- How many data bytes a response under this entry carries into its owner. -/
def State.wanted (s : State) (e : TagEntry) : Nat :=
  match e.kind with
  | .copyRead => ((s.fab.chunkOf e).map (·.len)).getD 0
  | .producerWrite | .mergeWrite | .copyWrite => 0
  | .pass | .producerRead | .scanoutRead | .mergeRead => e.route.length

/-- Exactly `n` data bytes: a missing byte is a free value (log 10), and bytes beyond `n` are not taken. -/
def readData (fresh : Nat) (data : List Byte) (n : Nat) : List Byte :=
  data.take n ++ (List.range (n - data.length)).map (fun k => Config.shortReadByte (fresh + k))

/-- How a response ends an access (R159): the data of a READ answered OKAY, none with ERROR. -/
def State.responseEnd (s : State) (e : TagEntry) (code : DownCode) (data : List Byte) : AccessEnd :=
  match code with
  | .okay => .okay (readData s.freeCount data (s.wanted e))
  | .error => .error

/-- A response for an ISSUED tag is taken (R159, R186). -/
def State.takeResponse (s : State) (t : Fin 32) (code : DownCode) (data : List Byte) : State :=
  let e := s.tag t
  let fab := s.fab.complete s.env s.tables e t (s.responseEnd e code data)
  ({ s with fab := fab, freeCount := s.freeCount + (s.wanted e - data.length) }.setTag t TagEntry.cleared).endReset

/-- A late response: discarded, the tag freed, LATE_RESPONSE appended (R163). -/
def State.takeLate (s : State) (t : Fin 32) : State :=
  { s with fab := s.fab.logTag s.env .lateResponse (s.tag t) t 0 }.setTag t TagEntry.cleared

/-- A downstream response naming a tag (R5, R159, R163); one naming a FREE tag is discarded. -/
def State.respond (s : State) (t : Fin 32) (code : DownCode) (data : List Byte) : State :=
  match (s.tag t).st with
  | .free => s
  | .issued => (s.takeResponse t code data).finish
  | .quarantined => (s.takeLate t).finish

/-- Whether an ISSUED tag's response limit has expired: the elapsed time, modulo 2³², reaches L × 64 µs (R161). -/
def State.due (s : State) (t : Fin 32) : Bool :=
  decide ((s.tag t).st = .issued) && decide (s.limit ≠ 0)
    && decide (s.limit.toNat * 64 ≤ (s.timebase - (s.tag t).issueTime).toNat)

/-- An ISSUED tag expires (R162, R186). -/
def State.expireTag (s : State) (t : Fin 32) : State :=
  let e := s.tag t
  let fab := s.fab.complete s.env s.tables e t .timeout
  ({ s with fab := fab }.setTag t { e with st := .quarantined, upRef := none }).endReset

/-- Every tag that is due expires, in increasing tag number, each expiry an event of its own (R162, R164). -/
def State.expireDue (s : State) : State :=
  allTags.foldl (fun s t => if s.due t then (s.expireTag t).finish else s) s

end Sys2Proof.Machine
end

