-- ==== Sys2Proof/Machine/SurfaceOps.lean ====
section
/-! DEFINITION. The surface table's larger operations: the eight checks of ATTACH (R29, R30), the values a surface starts from
(R31), DETACH (R16, R32, R109, R131, R149), DISCARD (R16, R71, R103, R104, R148) and soft reset (R21, R39, R184). -/

namespace Sys2Proof.Machine

/-! ## The checks of ATTACH -/

/-- Whether an address is a multiple of 4096. -/
def aligned4096 (a : Addr) : Bool := a.toNat % 4096 == 0

/-- Check 1, field ranges (R29); the window order is left to check 6. -/
def Descriptor.check1 (d : Descriptor) : Bool :=
  decide (d.mode.toNat ≤ 1) && decide (d.pipe.toNat ≤ 3) && decide (d.format.toNat ≤ 3) && decide (d.palette.toNat ≤ 1)
    && decide (d.present.toNat ≤ 1) && decide (1 ≤ d.w) && decide (d.w ≤ 4096) && decide (1 ≤ d.h)
    && decide (d.h ≤ 4096) && decide (1 ≤ d.pitch.toNat) && decide (d.pitch.toNat ≤ 1024)
    && decide (2 ≤ d.count.toNat) && decide (d.count.toNat ≤ 4) && decide (1 ≤ d.minShow.toNat)
    && decide (d.minShow.toNat ≤ 4) && decide (d.holdLimit.toNat ≤ 15) && decide (d.orient.toNat < 8)
    && decide (d.flags.toNat < 8) && aligned4096 d.apBase && decide (d.apStart + d.apSize ≤ 2 ^ 40)

/-- Check 2, pitch (R29). -/
def Descriptor.check2 (d : Descriptor) : Bool := decide (4 * d.w ≤ d.pitchBytes)

/-- The buffers that the descriptor uses: 0 to N − 1. -/
def Descriptor.bufferIndexes (d : Descriptor) : List Nat := List.range d.count.toNat

/-- The first byte of a buffer region (R23). -/
def Descriptor.regionStart (d : Descriptor) (k : Nat) : Nat := (d.baseOf k).toNat

/-- Check 3, buffer alignment (R29). -/
def Descriptor.check3 (d : Descriptor) : Bool :=
  d.bufferIndexes.all (fun k => aligned4096 (d.baseOf k) && decide (d.regionStart k + d.regionSize ≤ 2 ^ 40))

/-- Whether two spans of addresses, each a start and a size, share a byte. -/
def spansMeet (a an b bn : Nat) : Bool := decide (a < b + bn) && decide (b < a + an)

/-- Check 4, buffer overlap (R29). -/
def Descriptor.check4 (d : Descriptor) : Bool :=
  d.bufferIndexes.all (fun k => d.bufferIndexes.all (fun l =>
    k == l || !spansMeet (d.regionStart k) d.regionSize (d.regionStart l) d.regionSize))

/-- A scroll offset in its range: 0 to band rows − 1, or 0 when band rows is 0 (R22, R29, R37). -/
def Descriptor.scrollInRange (d : Descriptor) (v : Half) : Bool :=
  if d.bandRows = 0 then v == 0 else decide (v.toNat < d.bandRows.toNat)

/-- A visible range in its range (R22, R29, R37). -/
def Descriptor.visibleInRange (d : Descriptor) (top bottom : Half) : Bool :=
  decide (top.toNat ≤ bottom.toNat) && decide (bottom.toNat < d.h)

/-- Check 5, band and visible range (R29). -/
def Descriptor.check5 (d : Descriptor) : Bool :=
  decide (d.bandTop.toNat < d.h) && decide (d.bandTop.toNat + d.bandRows.toNat ≤ d.h) && d.scrollInRange d.scroll
    && d.visibleInRange d.visTop d.visBottom

/-- A stream window in the logical dimensions of the descriptor's orientation, with its order coded 0 or 1 (R29, R36). -/
def Descriptor.windowInRange (d : Descriptor) (xs xe ys ye : Half) (order : Byte) : Bool :=
  let o := orientOf d.orient
  decide (xs.toNat ≤ xe.toNat) && decide (xe.toNat < d.lwOf o) && decide (ys.toNat ≤ ye.toNat)
    && decide (ye.toNat < d.lhOf o) && decide (order.toNat ≤ 1)

/-- Check 6, stream window (R29). -/
def Descriptor.check6 (d : Descriptor) : Bool := !d.isStream || d.windowInRange d.xs d.xe d.ys d.ye d.order

/-- The other surfaces that are ATTACHED or DETACHING (R30). -/
def Fabric.liveOthers (f : Fabric) (i : Fin 8) : List (Fin 8) :=
  allSurfaces.filter (fun k => decide (k ≠ i) && (f.surf k).life.live)

/-- Check 7, aperture conflict (R30). -/
def Fabric.check7 (f : Fabric) (i : Fin 8) : Bool :=
  let d := (f.surf i).desc
  (f.liveOthers i).all (fun k =>
    let e := (f.surf k).desc
    !spansMeet d.apStart d.apSize e.apStart e.apSize)

/-- Check 8, buffer conflict (R30). -/
def Fabric.check8 (f : Fabric) (i : Fin 8) : Bool :=
  let d := (f.surf i).desc
  (f.liveOthers i).all (fun k =>
    let e := (f.surf k).desc
    d.bufferIndexes.all (fun a => e.bufferIndexes.all (fun b =>
      !spansMeet (d.regionStart a) d.regionSize (e.regionStart b) e.regionSize)))

/-- The number of the first check that fails, if any (R28). -/
def Fabric.failedCheck (f : Fabric) (i : Fin 8) : Option Nat :=
  let d := (f.surf i).desc
  if d.check1 = false then some 1
  else if d.check2 = false then some 2
  else if d.check3 = false then some 3
  else if d.check4 = false then some 4
  else if d.check5 = false then some 5
  else if d.check6 = false then some 6
  else if f.check7 i = false then some 7
  else if f.check8 i = false then some 8
  else none

/-- The values a surface starts from when ATTACH succeeds (R31). -/
def Surface.attached (su : Surface) : Surface :=
  let d := su.desc
  { life := .attached, desc := d, bufs := d.bufferIndexes.map (fun k => BufRec.fresh k (d.baseOf k)),
    present := [], closing := [], frameCounter := 0, history := [], holdWait := 0, holdReached := false,
    closePending := false, latch := none, slot := none, merges := [], lane := [], head := .fresh, deferred := [],
    scrollActive := d.scroll.toNat, scrollPending := d.scroll.toNat,
    topActive := d.visTop.toNat, topPending := d.visTop.toNat,
    bottomActive := d.visBottom.toNat, bottomPending := d.visBottom.toNat }

/-! ## DETACH (R32) -/

/-- Every request of the lane has its remaining parts dropped, which answers the unissued ones ABORTED, and the lane is
emptied (R16). -/
def Fabric.dropLane (f : Fabric) (i : Fin 8) : Fabric :=
  ((f.surf i).lane.foldl (fun g q => g.dropRest q.id) f).modSurf i (fun su => { su with lane := [], head := .fresh })

/-- Whether a buffer is in one of the states that DETACH takes out of use (R32). -/
def BufState.inUse : BufState → Bool
  | .filling | .closing | .ready | .shown => true
  | .free | .draining => false

/-- Every buffer that is FILLING, CLOSING, READY or SHOWN leaves use; the present queue, close pending, the fill latch and
the hold-wait counter are emptied (R32, R41, R109). -/
def Surface.retireBuffers (su : Surface) : Surface :=
  { su with
    bufs := su.bufs.map (fun r => if r.st.inUse then r.leaveUse else r)
    present := [], closing := [], closePending := false, latch := none, holdWait := 0, holdReached := false }

/-- An ATTACHED surface detaches (R32): the lane and the scanout reads, the slot, the merges, the copy jobs, the buffers, and
the test for the end of the drain. -/
def Fabric.detach (f : Fabric) (env : Env) (i : Fin 8) : Fabric :=
  let f := f.modSurf i (fun su => { su with life := .detaching })
  let f := f.dropLane i
  let f := f.dropScansOf (fun e => decide (e.surface = i))
  let f := f.modSurf i (fun su => { su.interruptMerges (fun _ => true) with slot := none })
  let f := f.cancelJobs i
  let f := f.modSurf i Surface.retireBuffers
  f.bufferTests env i

/-! ## DISCARD (R103, R104) -/

/-- DISCARD FILLING at the lane: a head that has issued a part has its remaining parts dropped and leaves, and a head that has
issued none is handled afresh (R16). -/
def Fabric.releaseHead (f : Fabric) (i : Fin 8) : Fabric :=
  match (f.surf i).head, (f.surf i).lane with
  | .bound bd, q :: qs =>
    if bd.issued then (f.dropRest q.id).modSurf i (fun su => { su with lane := qs, head := .fresh })
    else f.modSurf i (fun su => { su with head := .fresh })
  | _, _ => f.modSurf i (fun su => { su with head := .fresh })

/-- DISCARD FILLING of the fill into buffer `b` (R103). -/
def Fabric.discardFill (f : Fabric) (env : Env) (i : Fin 8) (b : Nat) : Fabric :=
  let f := f.releaseHead i
  let f := f.modSurf i (fun su =>
    { su.interruptMerges (fun m => m.buf == b) with closePending := false, slot := none })
  let f := f.cancelJob i b true
  let f := f.modSurf i (fun su =>
    { su with latch := none }.modBuf b (fun r => { r with content := 0 }.leaveUse))
  f.bufferTests env i

/-- DISCARD READY: each READY buffer leaves use in present-queue order and the queue is emptied (R104). -/
def Surface.discardReady (su : Surface) : Surface :=
  { su.present.foldl (fun s b => s.modBuf b BufRec.leaveUse) su with present := [] }

/-! ## Soft reset (R184) -/

/-- Step 3: the requests of the pass-through queue are answered ABORTED or have their remaining parts dropped (R21). -/
def Fabric.dropPass (f : Fabric) : Fabric :=
  { f.passQ.foldl (fun g e => g.dropRest e.id) f with passQ := [] }

/-- Step 3 for every queue and lane (R21). -/
def Fabric.dropAll (f : Fabric) : Fabric :=
  allSurfaces.foldl (fun g i => g.dropLane i) (f.dropPass.dropScansOf (fun _ => true))

/-- The surfaces that are ATTACHED. -/
def Fabric.attachedSurfaces (f : Fabric) : List (Fin 8) :=
  allSurfaces.filter (fun i => decide ((f.surf i).life = .attached))

/-- RESET taken in RUNNING, steps 1 to 5 (R184); the order of the detaching surfaces among themselves is a free value
(log 4). -/
def State.softReset (s : State) : State :=
  let s := { s with fab := { s.fab with events := [] }, device := .resetting }
  let order := pickOrder 8 (Config.surfaceOrder s.freeCount) s.fab.attachedSurfaces
  let s := { s with freeCount := s.freeCount + 1 }
  let s := s.onFabric (fun env f => order.foldl (fun g i => g.detach env i) f.dropAll)
  s.endReset.finish

end Sys2Proof.Machine
end

