-- ==== Sys2Proof/Machine/ControlLink.lean ====
section
/-! DEFINITION. The control link: each command's tests and effect (R25 to R38, R61, R62, R102 to R104, R113, R164, R181,
R182, R184, R191, R192), the link interface's tests (R176, R180), the taking of messages and bytes (R171, R172), the bits of CDI and CDO (R169, R175), and
the release of CSEL (R172 to R175). -/

namespace Sys2Proof.Machine

/-- What a command does: the part after it, and its reply. -/
abbrev Applied := State × Reply

/-- A command that fails a test changes nothing (R25, R176). -/
def State.failed (s : State) (st : Status) : Applied := (s, Reply.plain st)

/-- An answer of OK with data. -/
def State.okWith (s : State) (data : List Byte) : Applied := (s, { status := .ok, data := data })

/-- An answer of OK with no data. -/
def State.done (s : State) : Applied := s.okWith []

/-! ## Commands that name a surface (R25) -/

/-- What the blocks hold for surface `i`. -/
def State.surf (s : State) (i : Fin 8) : Surface := s.fab.surf i

/-- Surface `i` changed by `g`, nothing else of the part. -/
def State.modSurf (s : State) (i : Fin 8) (g : Surface → Surface) : State :=
  { s with fab := s.fab.modSurf i g }

/-- Test 1 of R25, the surface number, and then what the command does with the surface it names. -/
def State.named (s : State) (params : List Byte) (g : Fin 8 → Applied) : Applied :=
  match surfaceNumber params with
  | some i => g i
  | none => s.failed .badValue

/-- Tests 1 and 2 of R25 for a command that only an ATTACHED surface admits (R180). -/
def State.onAttached (s : State) (params : List Byte) (g : Fin 8 → Applied) : Applied :=
  s.named params fun i => if (s.surf i).life = .attached then g i else s.failed .badState

/-- A change of the descriptor of surface `i`. -/
def State.modDesc (s : State) (i : Fin 8) (g : Descriptor → Descriptor) : State :=
  s.modSurf i (fun su => { su with desc := g su.desc })

/-- DEFINE_SURFACE (R26). -/
def applyDefineSurface (params : List Byte) (s : State) : Applied :=
  s.named params fun i =>
    match (s.surf i).life with
    | .empty | .defined =>
      (s.modSurf i (fun su => { su with life := .defined, desc := Descriptor.ofBlock params })).done
    | .attached | .detaching => s.failed .badState

/-- READ_SURFACE (R27). -/
def applyReadSurface (params : List Byte) (s : State) : Applied :=
  s.named params fun i =>
    let su := s.surf i
    s.okWith (su.life.code :: if su.life = .empty then [] else su.desc.block i)

/-- ATTACH (R28): the eight checks, and the starting values (R31). The data byte names the failed check; a surface number above 7
fails test 1 of R25 and none of the eight checks, so that its BAD_VALUE carries no data (DESIGN CHOICE, log 27). -/
def applyAttach (params : List Byte) (s : State) : Applied :=
  s.named params fun i =>
    if (s.surf i).life = .defined then
      match s.fab.failedCheck i with
      | some n =>
        (s, { status := if n ≤ 6 then .badValue else .conflict, data := [BitVec.ofNat 8 n] })
      | none => (s.modSurf i Surface.attached).finish.done
    else s.failed .badState

/-- DETACH (R32). -/
def applyDetach (params : List Byte) (s : State) : Applied :=
  s.named params fun i =>
    match (s.surf i).life with
    | .attached => ((s.onFabric (fun env f => f.detach env i)).finish, Reply.plain .accepted)
    | .detaching => s.failed .busy
    | .empty | .defined => s.failed .badState

/-- ERASE (R34). -/
def applyErase (params : List Byte) (s : State) : Applied :=
  s.named params fun i =>
    match (s.surf i).life with
    | .defined => (s.modSurf i (fun _ => Surface.empty)).done
    | .empty => s.done
    | .attached | .detaching => s.failed .badState

/-- The stream window against the logical dimensions that new flags give (R35). -/
def Descriptor.orientFits (d : Descriptor) (o : Orient) : Bool :=
  !d.isStream || (decide (d.xe.toNat < d.lwOf o) && decide (d.ye.toNat < d.lhOf o))

/-- SET_ORIENT (R35). -/
def applySetOrient (params : List Byte) (s : State) : Applied :=
  s.onAttached params fun i =>
    let b := byteAt params 1
    if b.toNat < 8 ∧ (s.surf i).desc.orientFits (orientOf b) = true then
      (s.modDesc i (fun d => { d with orient := b })).done
    else s.failed .badValue

/-- SET_WINDOW (R36): a DIRECT surface does not admit it. -/
def applySetWindow (params : List Byte) (s : State) : Applied :=
  s.onAttached params fun i =>
    let d := (s.surf i).desc
    let xs := halfAt params 1
    let xe := halfAt params 3
    let ys := halfAt params 5
    let ye := halfAt params 7
    let order := byteAt params 9
    if d.isStream = false then s.failed .badState
    else if d.windowInRange xs xe ys ye order then
      (s.modDesc i (fun d => { d with xs := xs, xe := xe, ys := ys, ye := ye, order := order })).done
    else s.failed .badValue

/-- SET_SCROLL (R37): the descriptor field and the pending value. -/
def applySetScroll (params : List Byte) (s : State) : Applied :=
  s.onAttached params fun i =>
    let v := halfAt params 1
    if (s.surf i).desc.scrollInRange v then
      (s.modSurf i (fun su => { su with desc := { su.desc with scroll := v }, scrollPending := v.toNat })).done
    else s.failed .badValue

/-- SET_VISIBLE (R37): the descriptor fields and the pending range. -/
def applySetVisible (params : List Byte) (s : State) : Applied :=
  s.onAttached params fun i =>
    let top := halfAt params 1
    let bottom := halfAt params 3
    if (s.surf i).desc.visibleInRange top bottom then
      (s.modSurf i (fun su =>
        { su with desc := { su.desc with visTop := top, visBottom := bottom },
                  topPending := top.toNat, bottomPending := bottom.toNat })).done
    else s.failed .badValue

/-- The values of SET_POLICY in their ranges (R22, R38). -/
def policyInRange (present minShow flags hold : Byte) : Bool :=
  decide (present.toNat ≤ 1) && decide (1 ≤ minShow.toNat) && decide (minShow.toNat ≤ 4) && decide (flags.toNat < 8)
    && decide (hold.toNat ≤ 15)

/-- The descriptor with the six policy fields of SET_POLICY. -/
def Descriptor.withPolicy (d : Descriptor) (present minShow flags hold : Byte) : Descriptor :=
  { d with present := present, minShow := minShow, flags := flags, holdLimit := hold }

/-- The six policy fields change together; a change of carry-forward empties the history, and under RECLAIM a waiting head is
decided again (R38, R93). -/
def Surface.setPolicy (su : Surface) (d : Descriptor) : Surface :=
  { su with
    desc := d
    history := if d.carryForward = su.desc.carryForward then su.history else []
    head := if su.head = .waiting ∧ d.reclaim = true then .fresh else su.head }

/-- SET_POLICY (R38). -/
def applySetPolicy (params : List Byte) (s : State) : Applied :=
  s.onAttached params fun i =>
    let d := (s.surf i).desc.withPolicy (byteAt params 1) (byteAt params 2) (byteAt params 3) (byteAt params 4)
    if policyInRange (byteAt params 1) (byteAt params 2) (byteAt params 3) (byteAt params 4) then
      (s.modSurf i (fun su => su.setPolicy d)).finish.done
    else s.failed .badValue

/-- CLOSE (R102). -/
def applyCloseCommand (params : List Byte) (s : State) : Applied :=
  s.onAttached params fun i =>
    if (s.surf i).filling.isSome then (s.onFabric (fun env f => f.closeTrigger env i)).finish.done
    else s.failed .noFrame

/-- DISCARD (R103, R104). -/
def applyDiscard (params : List Byte) (s : State) : Applied :=
  s.onAttached params fun i =>
    if byteAt params 1 = 0 then
      match (s.surf i).filling with
      | some b => (s.onFabric (fun env f => f.discardFill env i b)).finish.done
      | none => s.failed .noFrame
    else if byteAt params 1 = 1 then
      if (s.surf i).present = [] then s.failed .noFrame
      else (s.modSurf i Surface.discardReady).finish.okWith [BitVec.ofNat 8 (s.surf i).present.length]
    else s.failed .badValue

/-! ## Pipes and tables -/

/-- BIND_PIPE (R113): the source and the enable are written together; the answer is the boundary counter. Requests held back
on the link are classified against the new source (R6, R7). -/
def applyBindPipe (params : List Byte) (s : State) : Applied :=
  if h : (byteAt params 0).toNat < 4 then
    let p : Fin 4 := ⟨(byteAt params 0).toNat, h⟩
    if (byteAt params 1).toNat < 64 ∧ (byteAt params 2).toNat ≤ 1 then
      let e : Pipe :=
        { s.pipes.get p with source := (byteAt params 1).setWidth 6, enabled := byteAt params 2 == 1 }
      ({ s with pipes := s.pipes.set p.val e p.isLt }).finish.okWith (wordBytes e.counter)
    else s.failed .badValue
  else s.failed .badValue

/-- A table with values written into the entries from a first index on (R61, R62). -/
def loadTable {α : Type} {n : Nat} (t : Vector α n) (first : Nat) (vals : List α) : Vector α n :=
  Vector.ofFn fun k : Fin n =>
    if first ≤ k.val then (vals[k.val - first]?).getD (t.get k) else t.get k

/-- LOAD_EXPAND (R61): channel 0 red, 1 green, 2 blue. -/
def applyLoadExpand (params : List Byte) (s : State) : Applied :=
  let channel := (byteAt params 0).toNat
  let first := (byteAt params 1).toNat
  let vals := params.drop 3
  let size := if channel = 1 then 64 else 32
  if 2 < channel then s.failed .badValue
  else if size < first + vals.length then s.failed .badValue
  else
    let t := s.tables
    let t' : Tables :=
      if channel = 0 then { t with red := loadTable t.red first vals }
      else if channel = 1 then { t with green := loadTable t.green first vals }
      else { t with blue := loadTable t.blue first vals }
    ({ s with tables := t' }).done

/-- The entries that a LOAD_PALETTE carries: blue, green and red of each (R62). -/
def paletteEntries : List Byte → List PaletteEntry
  | b :: g :: r :: rest => { blue := b, green := g, red := r } :: paletteEntries rest
  | _ => []

/-- LOAD_PALETTE (R62): palette 0 A, 1 B. -/
def applyLoadPalette (params : List Byte) (s : State) : Applied :=
  let palette := (byteAt params 0).toNat
  let first := (byteAt params 1).toNat
  let vals := paletteEntries (params.drop 3)
  if 1 < palette then s.failed .badValue
  else if 256 < first + vals.length then s.failed .badValue
  else
    let t := s.tables
    let t' : Tables :=
      if palette = 0 then { t with palA := loadTable t.palA first vals }
      else { t with palB := loadTable t.palB first vals }
    ({ s with tables := t' }).done

/-! ## Tags, events, identification, reset -/

/-- SET_TIMEOUT (R164): the new limit is measured from each tag's issue time at once. -/
def applySetTimeout (params : List Byte) (s : State) : Applied :=
  ({ s with limit := byteAt params 0 }).expireDue.okWith [s.limit]

/-- READ_EVENTS (R191). -/
def applyReadEvents (params : List Byte) (s : State) : Applied :=
  let n := (byteAt params 0).toNat
  if 1 ≤ n ∧ n ≤ 8 then
    ({ s with fab := { s.fab with events := s.fab.events.drop n } }).okWith
      ((s.fab.events.take n).flatMap EventRecord.bytes)
  else s.failed .badValue

/-- SET_ATTENTION (R192). -/
def applySetAttention (params : List Byte) (s : State) : Applied :=
  let m := halfAt params 0
  if m.toNat < 0x4000 then ({ s with mask := m }).okWith (halfBytes s.mask) else s.failed .badValue

/-- The identification data (R181). -/
def identData : List Byte := [0xD4, 0x10, 0x24, 0x03]

/-- The 11 bytes of STATUS (R182). -/
def State.statusData (s : State) : List Byte :=
  [s.device.code, s.link.lastError.code, BitVec.ofNat 8 (countTags s.tags TagEntry.isFree),
   BitVec.ofNat 8 (countTags s.tags TagEntry.isIssued), BitVec.ofNat 8 (countTags s.tags TagEntry.isQuarantined),
   BitVec.ofNat 8 s.fab.events.length, if attnLow s.mask s.fab.events then 1 else 0] ++ wordBytes s.timebase

/-- STATUS (R182): the last link error is reported and then becomes NONE. -/
def applyStatus (s : State) : Applied :=
  ({ s with link := { s.link with lastError := .none } }).okWith s.statusData

/-- What a command that has passed the link interface's tests does, with its owner's tests. -/
def Command.apply (c : Command) (params : List Byte) (s : State) : Applied :=
  match c with
  | .ident => s.okWith identData
  | .status => applyStatus s
  | .defineSurface => applyDefineSurface params s
  | .readSurface => applyReadSurface params s
  | .attach => applyAttach params s
  | .detach => applyDetach params s
  | .erase => applyErase params s
  | .setOrient => applySetOrient params s
  | .setWindow => applySetWindow params s
  | .setScroll => applySetScroll params s
  | .setVisible => applySetVisible params s
  | .setPolicy => applySetPolicy params s
  | .close => applyCloseCommand params s
  | .discard => applyDiscard params s
  | .bindPipe => applyBindPipe params s
  | .loadExpand => applyLoadExpand params s
  | .loadPalette => applyLoadPalette params s
  | .setTimeout => applySetTimeout params s
  | .readEvents => applyReadEvents params s
  | .setAttention => applySetAttention params s
  | .reset => (s.softReset, Reply.plain .accepted)

/-! ## The tests of the link interface (R176) -/

/-- The commands that RESETTING admits (R180). -/
def Command.inResetting : Command → Bool
  | .ident | .status => true
  | .defineSurface | .readSurface | .attach | .detach | .erase | .setOrient | .setWindow | .setScroll | .setVisible
  | .setPolicy | .close | .discard | .bindPipe | .loadExpand | .loadPalette | .setTimeout | .readEvents | .setAttention
  | .reset => false

/-- Tests 3 and 4 of R176, and then the command. -/
def runCommand (c : Command) (params : List Byte) (s : State) : Applied :=
  if c.lengthFits params = false then s.failed .badLength
  else if s.device = .resetting ∧ c.inResetting = false then s.failed .busy
  else c.apply params s

/-- Tests 1 and 2 of R176 over every byte of a message, and then the others. -/
def runMessage (code : Byte) (params : List Byte) (check : Byte) (s : State) : Applied :=
  if byteSum (messageBody code params ++ [check]) ≠ 0 then s.failed .badCheck
  else
    match commandOf code with
    | none => s.failed .unknown
    | some c => runCommand c params s

/-! ## Messages and bytes at the link (R171, R172) -/

/-- The link goes to RESPONDING with the reply, the assembly empty (R171, R177). -/
def State.answer (a : Applied) : State :=
  { a.1 with link := { a.1.link with state := .responding, asm := [], bitCount := 0, shift := 0, cselHigh := false,
                                     response := a.2.frame, respPos := 0 } }

/-- Whether the bytes of a message that are still to come can be taken now: in IDLE with its footing, or in RECEIVING when
the assembly holds the first bytes of this message (R172, log 7). -/
def Link.takes (l : Link) (body : List Byte) : Bool :=
  match l.state with
  | .idle => !l.waitHigh
  | .receiving => l.asm.isPrefixOf body
  | .paused | .responding => false

/-- A message carried whole: its completing byte is taken and `run` tests and applies it (R176, log 7). -/
def State.message (s : State) (code : Byte) (params : List Byte) (run : State → Applied) : State :=
  if s.link.takes (messageBody code params) = true ∧ params.length ≤ 80 then State.answer (run s) else s

/-- A byte stored in the assembly (R171). -/
def State.store (s : State) (asm : List Byte) : State :=
  { s with link := { s.link with state := .receiving, asm := asm, bitCount := 0, shift := 0, cselHigh := false } }

/-- A byte taken in RECEIVING; `asm` is the assembly with it (R171, R172, R176). -/
def State.receive (s : State) (asm : List Byte) : State :=
  let length := (byteAt asm 1).toNat
  if asm.length = 2 ∧ 80 < length then State.answer (s.failed .badLength)
  else if asm.length = length + 3 then
    State.answer (runMessage (byteAt asm 0) ((asm.drop 2).take length) (byteAt asm (length + 2)) s)
  else s.store asm

/-- A whole byte taken by the link state machine (R172); in PAUSED, in RESPONDING and before the link has its footing nothing
is taken. -/
def State.takeByte (s : State) (b : Byte) : State :=
  match s.link.state with
  | .idle => if s.link.waitHigh then s else s.store [b]
  | .receiving => s.receive (s.link.asm ++ [b])
  | .paused | .responding => s

/-- The code and a length byte above 80 taken (R171): BAD_LENGTH at once. -/
def State.overlong (s : State) (code length : Byte) : State :=
  if s.link.takes [code] = true ∧ 80 < length.toNat then State.answer (s.failed .badLength) else s

/-- The part with its link changed by `g`. -/
def State.onLink (s : State) (g : Link → Link) : State := { s with link := g s.link }

/-- The link goes IDLE with the assembly empty, no bit of a byte held and no response held. -/
def Link.idle (l : Link) (cselHigh : Bool) : Link :=
  { l with state := .idle, asm := [], bitCount := 0, shift := 0, cselHigh := cselHigh, response := [], respPos := 0 }

/-! ## Bits on CDI and CDO (R169, R175) -/

/-- Whether a rising edge of CCLK samples a bit from CDI: in IDLE with the link's footing, and in RECEIVING (R169, R172). -/
def Link.samples (l : Link) : Bool :=
  match l.state with
  | .idle => !l.waitHigh
  | .receiving => true
  | .paused | .responding => false

/-- The bits of a byte in progress with one more bit behind them. -/
def shiftIn (held : Byte) (bit : Bool) : Byte := (held.extractLsb' 0 7).concat bit

/-- One bit sampled from CDI, CSEL low: it is counted, and with the eighth bit, the most significant having come first, the byte
is whole, is taken, and the bit count returns to 0 (R169). -/
def State.sampleBit (s : State) (bit : Bool) : State :=
  if s.link.samples then
    if s.link.bitCount = 7 then
      (s.onLink (fun l => { l with bitCount := 0, shift := 0, cselHigh := false })).takeByte
        (shiftIn s.link.shift bit)
    else s.onLink (fun l => { l with bitCount := l.bitCount + 1, shift := shiftIn l.shift bit, cselHigh := false })
  else s

/-- A transfer of the response leaves on CDO with `bits` of its bits presented, and the link goes IDLE. -/
def State.present (s : State) (bits : Nat) (cselHigh : Bool) : State :=
  { s.onLink (fun l => l.idle cselHigh) with cdo := s.cdo ++ [{ bytes := s.link.response, bits := bits }] }

/-- One clock in RESPONDING: the next bit of the response is presented on CDO and clocked out; with the last bit of the check byte
the link goes IDLE, CSEL still low (R172, R175). -/
def State.presentBit (s : State) : State :=
  if s.link.state = .responding then
    if s.link.respPos + 1 < 8 * s.link.response.length then s.onLink (fun l => { l with respPos := l.respPos + 1 })
    else s.present (8 * s.link.response.length) false
  else s

/-- Clocks in RESPONDING, one bit of the response each. -/
def State.presentBits : Nat → State → State
  | 0, s => s
  | n + 1, s => State.presentBits n s.presentBit

/-- One clock of CCLK with CSEL low and the level of CDI: in RESPONDING the bit on CDI is ignored and the next bit of the response
is presented, in every other link state the bit is sampled if the link samples (R169, R172, R175). -/
def State.clock (s : State) (bit : Bool) : State :=
  if s.link.state = .responding then s.presentBit else s.sampleBit bit

/-- The bits of a byte as the link carries them: most significant bit first (R169). -/
def bitsOf (b : Byte) : List Bool := (List.range 8).map (fun k => b.getMsbD k)

/-- Eight clocks that carry a byte on CDI. -/
def State.clockByte (s : State) (b : Byte) : State := (bitsOf b).foldl State.clock s

/-- The bit of a response at a place in the order in which the bits are presented. -/
def responseBit (response : List Byte) (k : Nat) : Bool := (byteAt response (k / 8)).getMsbD (k % 8)

/-- The level of CDO (R169): not driven (none) while CSEL is high; with CSEL low driven high, but in RESPONDING the last bit of the
response presented. Before the first one it is a free value (log 28). -/
def State.cdoLevel (s : State) : Option Bool :=
  if s.link.cselHigh then none
  else if s.link.state = .responding then
    some (if s.link.respPos = 0 then Config.cdoBeforeFirstBit (s.freeCount + s.cdo.length)
          else responseBit s.link.response (s.link.respPos - 1))
  else some true

/-! ## Link events (R172 to R175) -/

/-- CSEL rises (R169, R172 to R175). In IDLE with no bit sampled the link stays IDLE and has its footing; in RECEIVING with none
the message pauses; in either with 1 to 7 bits sampled it is a break; in RESPONDING the response is cut. In PAUSED CSEL is high
already. -/
def State.release (s : State) : State :=
  match s.link.state with
  | .idle =>
    if s.link.bitCount = 0 then s.onLink (fun l => { l with cselHigh := true, waitHigh := false })
    else s.onLink (fun l => { l.idle true with lastError := .brk })
  | .receiving =>
    if s.link.bitCount = 0 then s.onLink (fun l => { l with state := .paused, cselHigh := true, pauseStart := s.timebase })
    else s.onLink (fun l => { l.idle true with lastError := .brk })
  | .paused => s
  | .responding => (s.present s.link.respPos true).onLink (fun l => { l with lastError := .cut })

/-- CSEL released between whole bytes of a message (R173). -/
def State.pause (s : State) : State :=
  if s.link.state = .receiving ∧ s.link.bitCount = 0 then s.release else s

/-- CSEL rises in IDLE with no bit of a byte sampled (R169, R172). -/
def State.releaseIdle (s : State) : State :=
  if s.link.state = .idle ∧ s.link.bitCount = 0 then s.release else s

/-- CSEL released after these bits of a byte, in IDLE or RECEIVING (R174). Before the link has its footing no bit is sampled, and
the release gives it. -/
def State.breakAt (s : State) (bits : List Bool) : State :=
  if s.link.state = .idle ∨ s.link.state = .receiving then (bits.foldl State.clock s).release else s

/-- CSEL released after `bits` further bits of the response have been clocked out (R175): cut, or released in IDLE when the last
bit was among them. -/
def State.cutAt (s : State) (bits : Nat) : State :=
  if s.link.state = .responding then (State.presentBits bits s).release else s

/-- The bits of the response that are left clocked out, the last bit of its check byte among them, CSEL still low (R172, R175). -/
def State.clockOut (s : State) : State := State.presentBits (8 * s.link.response.length - s.link.respPos) s

/-- The link hold limit, 20 ms (R173). -/
def holdLimitTime : Nat := 20000

/-- How long the message has been paused, modulo 2³² (DEDUCED, log 25). -/
def State.pausedFor (s : State) : Nat := (s.timebase - s.link.pauseStart).toNat

/-- The paused message is abandoned (R173, R183); `cselHigh` is the level that CSEL has then. -/
def State.abandon (s : State) (cselHigh : Bool) : State :=
  s.onLink (fun l => { l.idle cselHigh with lastError := .holdLimit })

/-- CSEL falls (R169). In PAUSED the message resumes (R173): at the very moment of the limit the select is taken first, and the
order of LINK_HOLD_LIMIT and LINK_RESUME in the queue decides otherwise; beyond it the limit has been reached before. In IDLE the
part is selected. In RECEIVING and RESPONDING CSEL is low already. -/
def State.resume (s : State) : State :=
  match s.link.state with
  | .paused =>
    if s.pausedFor ≤ holdLimitTime then s.onLink (fun l => { l with state := .receiving, cselHigh := false })
    else s.abandon false
  | .idle => s.onLink (fun l => { l with cselHigh := false })
  | .receiving | .responding => s

/-- The link hold limit is reached (R173). -/
def State.linkLimit (s : State) : State :=
  if s.link.state = .paused ∧ holdLimitTime ≤ s.pausedFor then s.abandon true else s

/-! ## Hard reset (R187) -/

/-- RESETN asserted and released with CSEL at a level: every block at its hard reset values, and the link waits for CSEL to be high
before it samples (R169, R187). The requests offered on the link, the waiting commands and the traces are not the part's to
reset; the intake then accepts what is offered (R20, log 20). -/
def State.hardReset (s : State) (cselHigh : Bool) : State :=
  { State.reset with
    fab := { Fabric.reset with offered := s.fab.offered, sent := s.fab.sent }
    issued := s.issued, cdo := s.cdo, freeCount := s.freeCount, pending := s.pending
    link := { Link.reset with cselHigh := cselHigh, waitHigh := !cselHigh } }.finish

end Sys2Proof.Machine
end

