-- ==== Sys2Proof/Machine/LinkCommands.lean ====
section
/-! DEFINITION. The events at the control link that are no command of the catalogue (R169 to R176). -/

namespace Sys2Proof.Machine

/-- UNKNOWN_CODE_MESSAGE: a message with a valid check byte; the code is tested as in any message (R176, test 2). -/
def execUnknownCodeMessage (code : Byte) (params : List Byte) (s : State) : Host.Outcome State Fault Refusal :=
  .next (s.message code params (runMessage code params (checkByte (messageBody code params))))

/-- LENGTH_ABOVE_80: reception ends at the length byte (R171). -/
def execLengthAbove80 (code length : Byte) (s : State) : Host.Outcome State Fault Refusal :=
  .next (s.overlong code length)

/-- LINK_PAUSE (R173). -/
def execLinkPause (s : State) : Host.Outcome State Fault Refusal := .next s.pause

/-- LINK_RESUME: CSEL falls (R169, R172, R173). -/
def execLinkResume (s : State) : Host.Outcome State Fault Refusal := .next s.resume

/-- LINK_HOLD_LIMIT (R173). -/
def execLinkHoldLimit (s : State) : Host.Outcome State Fault Refusal := .next s.linkLimit

/-- BREAK: 1 to 7 bits of a byte sampled, and CSEL released (R174). -/
def execBreakLink (bits : List Bool) (s : State) : Host.Outcome State Fault Refusal := .next (s.breakAt bits)

/-- CUT (R175). -/
def execCut (bits : Nat) (s : State) : Host.Outcome State Fault Refusal := .next (s.cutAt bits)

/-- MESSAGE_BYTE_TAKEN: the eight bits of a byte clocked in, most significant first, the eighth making it whole (R169, R172). -/
def execMessageByteTaken (b : Byte) (s : State) : Host.Outcome State Fault Refusal := .next (s.clockByte b)

/-- BAD_CHECK_MESSAGE: a message with the check byte as it was sent (R176, test 1). -/
def execBadCheckMessage (code : Byte) (params : List Byte) (check : Byte) (s : State) :
    Host.Outcome State Fault Refusal :=
  .next (s.message code params (runMessage code params check))

/-- RESPONSE_CLOCKED_OUT (R172, R175). -/
def execResponseClockedOut (s : State) : Host.Outcome State Fault Refusal := .next s.clockOut

/-- CSEL_RELEASED_IDLE (R169, R172). -/
def execCselReleasedIdle (s : State) : Host.Outcome State Fault Refusal := .next s.releaseIdle

end Sys2Proof.Machine
end

