-- ==== Sys2Proof/Machine/MessageCommands.lean ====
section
/-! DEFINITION. The control messages, one meaning a row: each carries its parameter bytes, and its completing byte is taken in
the one event of R176. -/

namespace Sys2Proof.Machine

/-- A message of a command of the catalogue with a valid check byte (R176, R179). -/
def State.command (s : State) (c : Command) (params : List Byte) : State :=
  s.message c.code params (runCommand c params)

/-- IDENT (R181). -/
def execIdent (params : List Byte) (s : State) : Host.Outcome State Fault Refusal :=
  .next (s.command .ident params)

/-- STATUS (R182). -/
def execStatus (params : List Byte) (s : State) : Host.Outcome State Fault Refusal :=
  .next (s.command .status params)

/-- DEFINE_SURFACE (R26). -/
def execDefineSurface (params : List Byte) (s : State) : Host.Outcome State Fault Refusal :=
  .next (s.command .defineSurface params)

/-- READ_SURFACE (R27). -/
def execReadSurface (params : List Byte) (s : State) : Host.Outcome State Fault Refusal :=
  .next (s.command .readSurface params)

/-- ATTACH (R28). -/
def execAttach (params : List Byte) (s : State) : Host.Outcome State Fault Refusal :=
  .next (s.command .attach params)

/-- DETACH (R32). -/
def execDetach (params : List Byte) (s : State) : Host.Outcome State Fault Refusal :=
  .next (s.command .detach params)

/-- ERASE (R34). -/
def execErase (params : List Byte) (s : State) : Host.Outcome State Fault Refusal :=
  .next (s.command .erase params)

/-- SET_ORIENT (R35). -/
def execSetOrient (params : List Byte) (s : State) : Host.Outcome State Fault Refusal :=
  .next (s.command .setOrient params)

/-- SET_WINDOW (R36). -/
def execSetWindow (params : List Byte) (s : State) : Host.Outcome State Fault Refusal :=
  .next (s.command .setWindow params)

/-- SET_SCROLL (R37). -/
def execSetScroll (params : List Byte) (s : State) : Host.Outcome State Fault Refusal :=
  .next (s.command .setScroll params)

/-- SET_VISIBLE (R37). -/
def execSetVisible (params : List Byte) (s : State) : Host.Outcome State Fault Refusal :=
  .next (s.command .setVisible params)

/-- SET_POLICY (R38). -/
def execSetPolicy (params : List Byte) (s : State) : Host.Outcome State Fault Refusal :=
  .next (s.command .setPolicy params)

/-- CLOSE (R102). -/
def execClose (params : List Byte) (s : State) : Host.Outcome State Fault Refusal :=
  .next (s.command .close params)

/-- DISCARD with choice FILLING (R103). Any other choice byte is answered as R103 states, whichever row carries it (log 17). -/
def execDiscardFilling (params : List Byte) (s : State) : Host.Outcome State Fault Refusal :=
  .next (s.command .discard params)

/-- DISCARD with choice READY (R104). Any other choice byte is answered as R103 states, whichever row carries it (log 17). -/
def execDiscardReady (params : List Byte) (s : State) : Host.Outcome State Fault Refusal :=
  .next (s.command .discard params)

/-- BIND_PIPE (R113). -/
def execBindPipe (params : List Byte) (s : State) : Host.Outcome State Fault Refusal :=
  .next (s.command .bindPipe params)

/-- LOAD_EXPAND (R61). -/
def execLoadExpand (params : List Byte) (s : State) : Host.Outcome State Fault Refusal :=
  .next (s.command .loadExpand params)

/-- LOAD_PALETTE (R62). -/
def execLoadPalette (params : List Byte) (s : State) : Host.Outcome State Fault Refusal :=
  .next (s.command .loadPalette params)

/-- SET_TIMEOUT (R164). -/
def execSetTimeout (params : List Byte) (s : State) : Host.Outcome State Fault Refusal :=
  .next (s.command .setTimeout params)

/-- READ_EVENTS (R191). -/
def execReadEvents (params : List Byte) (s : State) : Host.Outcome State Fault Refusal :=
  .next (s.command .readEvents params)

/-- SET_ATTENTION (R192). -/
def execSetAttention (params : List Byte) (s : State) : Host.Outcome State Fault Refusal :=
  .next (s.command .setAttention params)

/-- RESET (R184). -/
def execReset (params : List Byte) (s : State) : Host.Outcome State Fault Refusal :=
  .next (s.command .reset params)

end Sys2Proof.Machine
end

