-- ==== Sys2Proof/Machine/TrafficCommands.lean ====
section
/-! DEFINITION. The commands of the two memory links, of the pipes' SYNC lines and of the timers: UPSTREAM_REQUEST (R6), GRANT
(R158), DOWNSTREAM_RESPONSE (R159, R163), TAG_TIMEOUT (R162), BOUNDARY (R114, R124, R130), HOLD_LIMIT_EXPIRY (R94), HARD_RESET
(R187). -/

namespace Sys2Proof.Machine

/-- UPSTREAM_REQUEST: a request is offered at the tail of the link, and the intake accepts what it may (R6). -/
def execUpstreamRequest (r : UpRequest) (s : State) : Host.Outcome State Fault Refusal :=
  .next (s.onFabric (fun _ f => f.offer r)).finish

/-- GRANT: one decision of the arbiter, with the issue and what follows from it at once (R157, R158). -/
def execGrant (s : State) : Host.Outcome State Fault Refusal := .next s.arbitrate.finish

/-- DOWNSTREAM_RESPONSE: a response naming a tag (R5, R159, R163). -/
def execDownstreamResponse (t : Fin 32) (code : DownCode) (data : List Byte) (s : State) :
    Host.Outcome State Fault Refusal :=
  .next (s.respond t code data)

/-- TAG_TIMEOUT: an ISSUED tag whose response limit has been reached expires; of any other tag nothing is known to expire
(R161, R162). -/
def execTagTimeout (t : Fin 32) (s : State) : Host.Outcome State Fault Refusal :=
  .next (if s.due t then (s.expireTag t).finish else s)

/-! ## Boundaries -/

/-- The ATTACHED surfaces on a pipe (R114). -/
def Fabric.onPipe (f : Fabric) (p : Fin 4) : List (Fin 8) :=
  allSurfaces.filter (fun i => decide ((f.surf i).life = .attached) && decide ((f.surf i).desc.pipeIndex = p))

/-- The boundary reaches the rotation controller for each surface in turn, and each settles before the next (R116). -/
def Fabric.flips (f : Fabric) (env : Env) (n : Word) (order : List (Fin 8)) : Fabric :=
  order.foldl (fun g i => Fabric.settleSurface env (g.boundaryRule env i n) i) f

/-- The boundary reaches the scanout view for each surface (R124). -/
def Fabric.latches (f : Fabric) (order : List (Fin 8)) : Fabric :=
  order.foldl (fun g i => g.modSurf i Surface.latchScanout) f

/-- Requests that are offered one after another, each accepted if it may be before the next: those taken between the two events
of a boundary (R130). -/
def State.offerBetween (s : State) (rs : List UpRequest) : State :=
  rs.foldl (fun s r => (s.onFabric (fun _ f => f.offer r)).finish) s

/-- The two events of a boundary in either order, with the requests taken between them, however many (R114, R130, log
16). -/
def State.deliver (s : State) (n : Word) (order : List (Fin 8)) : Option Between → State
  | none => s.onFabric (fun env f => (f.flips env n order).latches order)
  | some x =>
    if x.latchFirst then
      ((s.onFabric (fun _ f => f.latches order)).offerBetween x.requests).onFabric (fun env f => f.flips env n order)
    else
      ((s.onFabric (fun env f => f.flips env n order)).offerBetween x.requests).onFabric (fun _ f => f.latches order)

/-- An edge on a SYNC line (R114): ignored while the pipe's sync enable is off. The order among the surfaces is a free value
(log 4). -/
def State.boundary (s : State) (p : Fin 4) (between : Option Between) : State :=
  let pipe := s.pipes.get p
  if pipe.enabled then
    let n := pipe.counter + 1
    let order := pickOrder 8 (Config.surfaceOrder s.freeCount) (s.fab.onPipe p)
    let s := { s with pipes := s.pipes.set p.val { pipe with counter := n } p.isLt, freeCount := s.freeCount + 1 }
    (s.deliver n order between).finish
  else
    match between with
    | none => s
    | some x => s.offerBetween x.requests

/-- BOUNDARY (R114). -/
def execBoundary (p : Fin 4) (between : Option Between) (s : State) : Host.Outcome State Fault Refusal :=
  .next (s.boundary p between)

/-- Whether an expiry of surface `i` is to be taken: it is ATTACHED, its head waits, and the last increment found the hold limit
reached (R94). -/
def State.holdDue (s : State) (i : Fin 8) : Bool :=
  decide ((s.surf i).life = .attached) && decide ((s.surf i).head = .waiting) && (s.surf i).holdReached

/-- HOLD_LIMIT_EXPIRY (R94): the expiry that an increment has found. A boundary takes it inside its own step 1 (R116), so that
none is left between commands (log 14). -/
def execHoldLimitExpiry (i : Fin 8) (s : State) : Host.Outcome State Fault Refusal :=
  .next (if s.holdDue i then (s.onFabric (fun env f => f.expireHold env i)).finish else s)

/-- HARD_RESET (R187), with the level of CSEL when RESETN is released. -/
def execHardReset (s : State) (cselHigh : Bool := false) : Host.Outcome State Fault Refusal := .next (s.hardReset cselHigh)

end Sys2Proof.Machine
end

