-- ==== Sys2Proof/Machine/Dispatch.lean ====
section
/-! DEFINITION. One arm per command. -/

namespace Sys2Proof.Machine

def exec (i : Instr) (s : State) : Host.Outcome State Fault Refusal :=
  match i with
  | .upstreamRequest r => Sys2Proof.Machine.execUpstreamRequest r s
  | .grant => Sys2Proof.Machine.execGrant s
  | .downstreamResponse t code data => Sys2Proof.Machine.execDownstreamResponse t code data s
  | .tagTimeout t => Sys2Proof.Machine.execTagTimeout t s
  | .boundary p between => Sys2Proof.Machine.execBoundary p between s
  | .holdLimitExpiry k => Sys2Proof.Machine.execHoldLimitExpiry k s
  | .ident params => Sys2Proof.Machine.execIdent params s
  | .status params => Sys2Proof.Machine.execStatus params s
  | .defineSurface params => Sys2Proof.Machine.execDefineSurface params s
  | .readSurface params => Sys2Proof.Machine.execReadSurface params s
  | .attach params => Sys2Proof.Machine.execAttach params s
  | .detach params => Sys2Proof.Machine.execDetach params s
  | .erase params => Sys2Proof.Machine.execErase params s
  | .setOrient params => Sys2Proof.Machine.execSetOrient params s
  | .setWindow params => Sys2Proof.Machine.execSetWindow params s
  | .setScroll params => Sys2Proof.Machine.execSetScroll params s
  | .setVisible params => Sys2Proof.Machine.execSetVisible params s
  | .setPolicy params => Sys2Proof.Machine.execSetPolicy params s
  | .close params => Sys2Proof.Machine.execClose params s
  | .discardFilling params => Sys2Proof.Machine.execDiscardFilling params s
  | .discardReady params => Sys2Proof.Machine.execDiscardReady params s
  | .bindPipe params => Sys2Proof.Machine.execBindPipe params s
  | .loadExpand params => Sys2Proof.Machine.execLoadExpand params s
  | .loadPalette params => Sys2Proof.Machine.execLoadPalette params s
  | .setTimeout params => Sys2Proof.Machine.execSetTimeout params s
  | .readEvents params => Sys2Proof.Machine.execReadEvents params s
  | .setAttention params => Sys2Proof.Machine.execSetAttention params s
  | .reset params => Sys2Proof.Machine.execReset params s
  | .unknownCodeMessage code params => Sys2Proof.Machine.execUnknownCodeMessage code params s
  | .lengthAbove80 code length => Sys2Proof.Machine.execLengthAbove80 code length s
  | .linkPause => Sys2Proof.Machine.execLinkPause s
  | .linkResume => Sys2Proof.Machine.execLinkResume s
  | .linkHoldLimit => Sys2Proof.Machine.execLinkHoldLimit s
  | .breakLink bits => Sys2Proof.Machine.execBreakLink bits s
  | .cut bits => Sys2Proof.Machine.execCut bits s
  | .hardReset level => Sys2Proof.Machine.execHardReset s level
  | .messageByteTaken b => Sys2Proof.Machine.execMessageByteTaken b s
  | .badCheckMessage code params check => Sys2Proof.Machine.execBadCheckMessage code params check s
  | .responseClockedOut => Sys2Proof.Machine.execResponseClockedOut s
  | .cselReleasedIdle => Sys2Proof.Machine.execCselReleasedIdle s

end Sys2Proof.Machine
end

