-- ==== Sys2Proof/Machine/Step.lean ====
section
/-! DEFINITION. The step: the command at the front of the queue is taken; on an empty queue a microsecond passes. -/

namespace Sys2Proof.Machine

/-- What has come due by the present timebase value: tags in increasing number, then a paused message (R161, R162, R173). -/
def State.takeDue (s : State) : State := s.expireDue.linkLimit

/-- One microsecond passes: what is due is taken before the timebase advances (R189, log 3). -/
def State.tick (s : State) : State :=
  let s := s.takeDue
  { s with timebase := s.timebase + 1 }

/-- One step: the command at the front of the queue with the queue's rest, or a tick on an empty queue (log 3). -/
def step (s : State) : Host.Outcome State Fault Refusal :=
  match s.pending with
  | [] => .next s.tick
  | c :: cs => exec c { s with pending := cs }

/-- The command that a word spells put at the front of the queue; no word spells one. -/
def State.withFetchWord (s : State) (nbits w : Nat) : State :=
  match Sys2Proof.decodeTableWord nbits w with
  | some c => { s with pending := c :: s.pending }
  | none => s

end Sys2Proof.Machine
end

