-- ==== Sys2Proof/Safety.lean ====
section
/-! DEFINITION. What counts as a safe part, and when a part is at rest: the terms that the statements use. -/

namespace Sys2Proof.Machine

/-! ## A part at rest: nothing is left that it would do at once (log 1) -/

/-- The lane head cannot move on by itself: it waits for a buffer with none FREE, for stripes or a merge, or for the issue of
a part it has formed. -/
def Fabric.headRests (f : Fabric) (i : Fin 8) : Bool :=
  match (f.surf i).head with
  | .fresh => false
  | .waiting => (f.surf i).chooseFree.isNone
  | .mapped m =>
    !f.headReady i m ||
      match m.plan with
      | .stream p => decide (p.runs ≠ [])
      | .direct _ => false
  | .bound bd => decide (bd.parts ≠ []) || (decide (bd.todo ≠ []) && (f.surf i).mergeOutstanding)

/-- The lane of surface `i` is at rest, and its merge claim, if it has one, has been presented. -/
def Fabric.surfaceRests (f : Fabric) (i : Fin 8) : Bool :=
  (decide ((f.surf i).lane = []) || decide ((f.surf i).life ≠ .attached) || f.headRests i) &&
    match (f.surf i).mergeClaim with
    | some m => m.presented.isSome
    | none => true

/-- The scanout head, if there is one, waits for a tag. -/
def Fabric.scansRest (f : Fabric) : Bool :=
  match f.scanQ with
  | e :: _ => decide (e.parts ≠ [])
  | [] => true

/-- The copy engine can start nothing: its slots are taken, or it has no stripe to select. -/
def Fabric.engineRests (f : Fabric) : Bool :=
  match f.copy.current with
  | some _ => decide (4 ≤ f.copy.slots.length)
  | none => f.copy.queue.all (fun j => !(f.startable j && j.lowestPending.isSome))

/-- The lanes, the scanout queue and the copy engine have nothing left to do at once. -/
def Fabric.still (f : Fabric) : Bool := allSurfaces.all f.surfaceRests && f.scansRest && f.engineRests

/-- The fabric has nothing left to do at once, and no request waits on the link. -/
def Fabric.rests (f : Fabric) : Bool := decide (f.offered = []) && f.still

/-- The part is at rest. -/
abbrev State.AtRest (s : State) : Prop := s.fab.rests = true

/-! ## Replies -/

/-- The part with a reply in RESPONDING and nothing else changed but the link (R171, R177). -/
def State.replied (s : State) (st : Status) (data : List Byte) : State :=
  State.answer (s, { status := st, data := data })

/-- Whether a message can be completed now: it is at most 80 parameter bytes long and the link takes it (R171, R172). -/
abbrev State.Takes (s : State) (code : Byte) (params : List Byte) : Prop :=
  s.link.takes (messageBody code params) = true ∧ params.length ≤ 80

/-! ## Rows, tests and frames -/

/-- The row of the table that a message of a command is: DISCARD has two, by its choice byte. -/
def Command.row (c : Command) (params : List Byte) : Instr :=
  match c with
  | .ident => .ident params
  | .status => .status params
  | .defineSurface => .defineSurface params
  | .readSurface => .readSurface params
  | .attach => .attach params
  | .detach => .detach params
  | .erase => .erase params
  | .setOrient => .setOrient params
  | .setWindow => .setWindow params
  | .setScroll => .setScroll params
  | .setVisible => .setVisible params
  | .setPolicy => .setPolicy params
  | .close => .close params
  | .discard => if byteAt params 1 = 1 then .discardReady params else .discardFilling params
  | .bindPipe => .bindPipe params
  | .loadExpand => .loadExpand params
  | .loadPalette => .loadPalette params
  | .setTimeout => .setTimeout params
  | .readEvents => .readEvents params
  | .setAttention => .setAttention params
  | .reset => .reset params

/-- The commands that name a surface (R25). -/
def Command.namesSurface : Command → Bool
  | .defineSurface | .readSurface | .attach | .detach | .erase | .setOrient | .setWindow | .setScroll | .setVisible
  | .setPolicy | .close | .discard => true
  | .ident | .status | .bindPipe | .loadExpand | .loadPalette | .setTimeout | .readEvents | .setAttention
  | .reset => false

/-- The parameter lengths of R179. LOAD_EXPAND carries as many values as its count of 1 to 64 says (R61), and LOAD_PALETTE three
bytes for each entry of its count of 1 to 24 (R62). -/
def Command.Fits (c : Command) (params : List Byte) : Prop :=
  let count := (byteAt params 2).toNat
  match c with
  | .ident => params.length = 0
  | .status => params.length = 0
  | .defineSurface => params.length = 66
  | .readSurface => params.length = 1
  | .attach => params.length = 1
  | .detach => params.length = 1
  | .erase => params.length = 1
  | .setOrient => params.length = 2
  | .setWindow => params.length = 10
  | .setScroll => params.length = 3
  | .setVisible => params.length = 5
  | .setPolicy => params.length = 5
  | .close => params.length = 1
  | .discard => params.length = 2
  | .bindPipe => params.length = 3
  | .loadExpand => 1 ≤ count ∧ count ≤ 64 ∧ params.length = 3 + count
  | .loadPalette => 1 ≤ count ∧ count ≤ 24 ∧ params.length = 3 + 3 * count
  | .setTimeout => params.length = 1
  | .readEvents => params.length = 1
  | .setAttention => params.length = 2
  | .reset => params.length = 0

/-- The lifecycle states of the surface named that admit a command (R180). -/
def Command.admittedIn (c : Command) (life : Lifecycle) : Bool :=
  match c with
  | .defineSurface => decide (life = .empty) || decide (life = .defined)
  | .attach => decide (life = .defined)
  | .erase => decide (life = .empty) || decide (life = .defined)
  | .detach | .setOrient | .setWindow | .setScroll | .setVisible | .setPolicy | .close | .discard =>
    decide (life = .attached)
  | .readSurface | .ident | .status | .bindPipe | .loadExpand | .loadPalette | .setTimeout | .readEvents
  | .setAttention | .reset => true

/-- Commands taken one after another. -/
def execAll : List Instr → State → Host.Outcome State Fault Refusal
  | [], s => .next s
  | c :: cs, s =>
    match exec c s with
    | .next t => execAll cs t
    | .fault e => .fault e
    | .refused e => .refused e

/-- Bytes taken one after another, each a MESSAGE_BYTE_TAKEN command. -/
def takeBytes (bs : List Byte) (s : State) : Host.Outcome State Fault Refusal := execAll (bs.map .messageByteTaken) s

/-! ## What the statements spell out -/

/-- R29, R30: when check `n` of ATTACH passes for surface `i`. Sizes are those of R23: a buffer region has P × H bytes, with the
pitch P programmed in units of 64, and the aperture that many rounded up to a multiple of 4096. -/
def Fabric.Passes (f : Fabric) (i : Fin 8) (n : Nat) : Prop :=
  let region := fun e : Descriptor => 64 * e.pitch.toNat * e.height.toNat
  let aperture := fun e : Descriptor => (region e + 4095) / 4096 * 4096
  let live := fun k : Fin 8 => (f.surf k).life = .attached ∨ (f.surf k).life = .detaching
  let d := (f.surf i).desc
  match n with
  | 1 =>
    d.mode.toNat ≤ 1 ∧ d.pipe.toNat ≤ 3 ∧ d.format.toNat ≤ 3 ∧ d.palette.toNat ≤ 1 ∧ d.present.toNat ≤ 1 ∧
      1 ≤ d.width.toNat ∧ d.width.toNat ≤ 4096 ∧ 1 ≤ d.height.toNat ∧ d.height.toNat ≤ 4096 ∧
      1 ≤ d.pitch.toNat ∧ d.pitch.toNat ≤ 1024 ∧ 2 ≤ d.count.toNat ∧ d.count.toNat ≤ 4 ∧
      1 ≤ d.minShow.toNat ∧ d.minShow.toNat ≤ 4 ∧ d.holdLimit.toNat ≤ 15 ∧ d.orient.toNat ≤ 7 ∧ d.flags.toNat ≤ 7 ∧
      d.apBase.toNat % 4096 = 0 ∧ d.apBase.toNat + aperture d ≤ 0xFFFFFFFFFF + 1
  | 2 => 4 * d.width.toNat ≤ 64 * d.pitch.toNat
  | 3 => ∀ k, k < d.count.toNat → (d.baseOf k).toNat % 4096 = 0 ∧ (d.baseOf k).toNat + region d ≤ 0xFFFFFFFFFF + 1
  | 4 => ∀ l, l < d.count.toNat → ∀ k, k < l →
      (d.baseOf k).toNat + region d ≤ (d.baseOf l).toNat ∨ (d.baseOf l).toNat + region d ≤ (d.baseOf k).toNat
  | 5 =>
    d.bandTop.toNat < d.height.toNat ∧ d.bandTop.toNat + d.bandRows.toNat ≤ d.height.toNat ∧
      (if d.bandRows.toNat = 0 then d.scroll.toNat = 0 else d.scroll.toNat < d.bandRows.toNat) ∧
      d.visTop.toNat ≤ d.visBottom.toNat ∧ d.visBottom.toNat < d.height.toNat
  | 6 => d.mode.toNat = 1 →
      d.xs.toNat ≤ d.xe.toNat ∧ d.xe.toNat < (if d.orient.getLsbD 0 then d.height.toNat else d.width.toNat) ∧
        d.ys.toNat ≤ d.ye.toNat ∧ d.ye.toNat < (if d.orient.getLsbD 0 then d.width.toNat else d.height.toNat) ∧
        d.order.toNat ≤ 1
  | 7 => ∀ k, k ≠ i → live k →
      d.apBase.toNat + aperture d ≤ (f.surf k).desc.apBase.toNat ∨
        (f.surf k).desc.apBase.toNat + aperture (f.surf k).desc ≤ d.apBase.toNat
  | 8 => ∀ k, k ≠ i → live k → ∀ a, a < d.count.toNat → ∀ b, b < (f.surf k).desc.count.toNat →
      (d.baseOf a).toNat + region d ≤ ((f.surf k).desc.baseOf b).toNat ∨
        ((f.surf k).desc.baseOf b).toNat + region (f.surf k).desc ≤ (d.baseOf a).toNat
  | _ => True

/-- R7: the request's span shares a byte with the aperture of surface `i`, which is live. -/
def Fabric.Meets (f : Fabric) (r : UpRequest) (i : Fin 8) : Prop :=
  ((f.surf i).life = .attached ∨ (f.surf i).life = .detaching) ∧
    r.addr.toNat < (f.surf i).desc.apBase.toNat + (f.surf i).desc.apSize ∧
    (f.surf i).desc.apBase.toNat < r.addr.toNat + r.len

/-- R7: the request's span lies wholly inside the aperture of surface `i`, which is live, and meets no other live one. -/
def Fabric.Within (f : Fabric) (r : UpRequest) (i : Fin 8) : Prop :=
  ((f.surf i).life = .attached ∨ (f.surf i).life = .detaching) ∧ (f.surf i).desc.apBase.toNat ≤ r.addr.toNat ∧
    r.addr.toNat + r.len ≤ (f.surf i).desc.apBase.toNat + (f.surf i).desc.apSize ∧ ∀ k, k ≠ i → ¬ f.Meets r k

/-- R8: a producer request that breaks a rule of surface `i`. -/
def Fabric.Breaks (f : Fabric) (r : UpRequest) (i : Fin 8) : Prop :=
  let d := (f.surf i).desc
  (f.surf i).life = .detaching ∨
    d.mode.toNat ≠ 1 ∧ d.width.toNat * d.height.toNat * d.bpp < r.addr.toNat - d.apBase.toNat + r.len ∨
    d.mode.toNat ≠ 1 ∧ r.kind = .read ∧ d.format.toNat = 0 ∨
    d.mode.toNat = 1 ∧ r.kind = .read ∨
    d.mode.toNat = 1 ∧ r.kind = .write ∧ ∃ x ∈ r.bytes, x.enabled = false

/-- A merge without the moment at which its claim was presented (R157). -/
def Merge.unstamped (m : Merge) : Merge := { m with presented := none }

/-- R90: `b` is the FREE buffer that the order of preference names. -/
def Surface.FirstChoice (su : Surface) (b : Nat) : Prop :=
  let free := fun (k : Nat) (x : BufRec) => su.bufs[k]? = some x ∧ x.st = .free
  let newest := fun x : BufRec => su.frameCounter ≠ 0 ∧ x.content = su.frameCounter
  let known := fun x : BufRec => ∃ e ∈ su.history, e.seq = x.content
  ∃ r, free b r ∧
    (newest r ∧ (∀ k x, k < b → free k x → ¬ newest x) ∨
      (∀ k x, free k x → ¬ newest x) ∧ known r ∧ (∀ k x, free k x → known x → x.content ≤ r.content) ∧
        (∀ k x, k < b → free k x → known x → x.content < r.content) ∨
      (∀ k x, free k x → ¬ newest x ∧ ¬ known x) ∧ ∀ k x, k < b → ¬ free k x)

/-- R133: stripe `x` is in the copy set of a fill that opens buffer `b`. The stripes are numbered from 0 to the last (R23). -/
def Surface.Copies (su : Surface) (b x : Nat) : Prop :=
  let c := (su.buf b).content
  let sh := (su.desc.height.toNat + 31) / 32
  su.desc.flags.getLsbD 2 = true ∧ su.frameCounter ≠ 0 ∧ c ≠ su.frameCounter ∧
    ((∃ e ∈ su.history, e.seq = c) → ∃ e ∈ su.history, c < e.seq ∧ x ∈ e.stripes) ∧
    ((∀ e ∈ su.history, e.seq ≠ c) → x < (su.desc.height.toNat + sh - 1) / sh)

/-- R141, R142: the chunk that starts at byte `off` of stored row `row` of a stripe, waiting for its read tag. It covers at most 256 of
the 4W pixel bytes of the row, and ends at an address that is a multiple of 4096. -/
def Surface.chunkAt (su : Surface) (id : Nat) (i : Fin 8) (source target stripe row off : Nat) : Chunk :=
  let at' := row * (64 * su.desc.pitch.toNat) + off
  let src := (su.buf source).base.toNat + at'
  { id := id, surface := i, source := source, target := target, stripe := stripe, srcAddr := src,
    tgtAddr := (su.buf target).base.toNat + at',
    len := min (min 256 (4 * su.desc.width.toNat - off)) (4096 - src % 4096), phase := .waiting, data := [], orphan := false }

/-- R138, R139: an engine without a current stripe selects stripe `x` of the QUEUED job `j`. Of the startable jobs with a PENDING stripe
those come first whose surface's lane head waits on a PENDING stripe of a job of the surface, by the acceptance number of that head;
a head that waits on this job names the PENDING stripe of its earliest pixel. Otherwise the job that joined the queue earliest is
taken, and the lowest-numbered PENDING stripe. That a job without a PENDING stripe is passed over, though the earliest waiting head
waits on a DEFERRED job behind it, is the model's choice (log 30). -/
def Fabric.Selects (f : Fabric) (j : CopyJob) (x : Nat) : Prop :=
  let pending := fun (q : CopyJob) (k : Nat) => q.stateOf k = some .pending
  let startable := fun q : CopyJob => ((f.surf q.surface).buf q.source).st ≠ .closing ∧ ∃ k, pending q k
  let awaited := fun (q : CopyJob) (m : Mapping) (k : Nat) => ∃ d, f.jobOf q.surface m.buf = some d ∧ pending d k
  let waits := fun q : CopyJob => ∃ m, (f.surf q.surface).head = .mapped m ∧ ∃ k ∈ m.stripes, awaited q m k
  let accepted := fun q : CopyJob => (f.surf q.surface).lane.head?.map (fun h => h.id)
  let lowest := pending j x ∧ ∀ k, pending j k → x ≤ k
  ∃ pre post, f.copy.queue = pre ++ j :: post ∧ startable j ∧
    (waits j ∧
        (∀ q ∈ pre, startable q → waits q → (accepted j).getD 0 < (accepted q).getD 0) ∧
        (∀ q ∈ post, startable q → waits q → (accepted j).getD 0 ≤ (accepted q).getD 0) ∧
        (∀ m, (f.surf j.surface).head = .mapped m →
          (m.buf = j.target → ∃ before after, m.stripes = before ++ x :: after ∧ awaited j m x ∧ ∀ k ∈ before, ¬ awaited j m k) ∧
          (m.buf ≠ j.target → lowest)) ∨
      (∀ q ∈ f.copy.queue, startable q → ¬ waits q) ∧ (∀ q ∈ pre, ¬ startable q) ∧ lowest)

/-- R133 to R136, R138, R139, R141, R142, R152: what the open of buffer `b` of surface `i` decides about carry-forward; `events` is the event
queue as the open finds it. An empty copy set makes no job. Where no buffer holds the newest frame there is no job either, the
history is emptied and CARRY_LOST is appended. Otherwise the buffer that holds it is the source, under source hold, and the new job,
every stripe PENDING, is DEFERRED behind a QUEUED job of the surface and else QUEUED at the tail, where an idle engine takes it up at
once unless its source is CLOSING: the stripe that the lane head waits on with its earliest pixel, else the lowest, is COPYING, and its
first chunk takes a free slot. That it does so in the same step, after the lanes, is the model's reading (logs 12 and 15). -/
def State.CopyDecided (s t : State) (i : Fin 8) (b : Nat) (events : List EventRecord) : Prop :=
  let su := s.surf i
  let holds := fun (k : Nat) (y : BufRec) => su.bufs[k]? = some y ∧ y.content = su.frameCounter
  let noJob := t.fab.copy = s.fab.copy ∧ (t.surf i).deferred = su.deferred
  ((∀ x, ¬ su.Copies b x) → noJob ∧ (t.surf i).history = su.history ∧ t.fab.events = events) ∧
  ((∃ x, su.Copies b x) → (∀ k y, ¬ holds k y) →
    noJob ∧ (t.surf i).history = [] ∧
      t.fab.events = appendEvent events
        { kind := .carryLost, surface := BitVec.ofNat 8 i.val, pipe := su.desc.pipe, buffer := BitVec.ofNat 8 b,
          seq := BitVec.ofNat 32 su.frameCounter, detail := 0, stamp := s.timebase }) ∧
  ∀ k y, (∃ x, su.Copies b x) → holds k y → (∀ l z, l < k → ¬ holds l z) →
    k ≠ b ∧ (t.surf i).history = su.history ∧ t.fab.events = events ∧
      (∃ y', (t.surf i).bufs[k]? = some y' ∧ y'.hold = true ∧ y'.st = y.st ∧ y'.content = y.content) ∧
      ∃ j : CopyJob, j.surface = i ∧ j.source = k ∧ j.target = b ∧
        (j.stripes.map (fun q => q.stripe)).Pairwise (· < ·) ∧
        (∀ x, (∃ q ∈ j.stripes, q.stripe = x) ↔ su.Copies b x) ∧
        (∀ q ∈ j.stripes, q.st ≠ .done ∧ q.fault = false) ∧
        let untaken := ∀ q ∈ j.stripes, q.st = .pending ∧ q.chunks = 0
        if ∃ q ∈ s.fab.copy.queue, q.surface = i then
          t.fab.copy = s.fab.copy ∧ (t.surf i).deferred = su.deferred ++ [j] ∧ untaken
        else
          t.fab.copy.queue = s.fab.copy.queue ++ [j] ∧
            if s.fab.copy.current = none ∧ y.st ≠ .closing then
              let awaited := match (t.surf i).head with
                | .mapped m => m.stripes.find? (fun x => j.stripes.any (fun q => q.stripe == x))
                | _ => none
              ∀ x, awaited.or (j.stripes.head?.map (fun q => q.stripe)) = some x →
                (∃ q ∈ j.stripes, q.stripe = x ∧ q.st = .copying) ∧
                  (s.fab.copy.slots.length < 4 →
                    t.fab.copy.slots[s.fab.copy.slots.length]? =
                      some (su.chunkAt s.fab.copy.nextChunk i k b x (x * ((su.desc.height.toNat + 31) / 32)) 0))
            else untaken

/-- R17, R18, R86, R160, R162, R165: what is left when the access of tag `k`, a part of the upstream request of record `p` into
buffer `b` (held as `r`) of surface `i`, ends without OKAY: the count of its kind is one less and a WRITE has damaged the buffer,
one event record names the tag, and the record takes the result, answering upstream when it was its last part. -/
def State.PartFails (s t : State) (k : Fin 32) (i : Fin 8) (b : Nat) (r : BufRec) (p : RespRecord) (event : EventKind)
    (code : UpCode) : Prop :=
  (t.surf i).bufs[b]? = some (match (s.tag k).kind with
    | .producerWrite => { r with prodWrites := r.prodWrites - 1, damaged := true }
    | .producerRead => { r with prodReads := r.prodReads - 1 }
    | .scanoutRead => { r with scanReads := r.scanReads - 1 }
    | _ => r) ∧
  t.fab.events = appendEvent s.fab.events
    { kind := event, surface := BitVec.ofNat 8 i.val, pipe := idByte (s.tag k).pipe, buffer := BitVec.ofNat 8 b,
      seq := BitVec.ofNat 32 r.content, detail := BitVec.ofNat 16 k.val, stamp := s.timebase } ∧
  if p.issued = 1 ∧ p.mark = true then
    t.fab.sent = s.fab.sent ++
      [{ tag := p.tag, code := if p.worst = .fault then .fault else code, data := [] }]
  else
    t.fab.sent = s.fab.sent ∧
      ∃ q ∈ t.fab.records, q.id = p.id ∧ q.issued = p.issued - 1 ∧ q.mark = p.mark ∧
        q.worst.code = if p.worst = .fault then .fault else code

/-- R17, R86, R129, R159: what is left when the access of tag `k`, a part of the upstream request of record `p` into buffer `b` (held
as `r`) of surface `i`, is answered OKAY: the count of its kind is one less and nothing else of the buffer changes, no event record
is appended, and the record, with `area` as its data area, has one part fewer and its result as before, or has answered it upstream
when that was its last part. -/
def State.PartEnds (s t : State) (k : Fin 32) (i : Fin 8) (b : Nat) (r : BufRec) (p : RespRecord) (area : List Byte) : Prop :=
  (t.surf i).bufs[b]? = some (match (s.tag k).kind with
    | .producerWrite => { r with prodWrites := r.prodWrites - 1 }
    | .producerRead => { r with prodReads := r.prodReads - 1 }
    | .scanoutRead => { r with scanReads := r.scanReads - 1 }
    | _ => r) ∧
  t.fab.events = s.fab.events ∧
  if p.issued = 1 ∧ p.mark = true then
    t.fab.sent = s.fab.sent ++
      [{ tag := p.tag,
         code := (match p.worst with | .okay => .okay | .aborted => .aborted | .timeout => .timeout | .fault => .fault),
         data := if p.kind = .read ∧ p.worst = .okay then area else [] }]
  else
    t.fab.sent = s.fab.sent ∧
      t.fab.records.find? (fun q => q.id == p.id) = some { p with issued := p.issued - 1, data := area }

/-- An access of tag `k` into buffer `b` (held as `r`) of the ATTACHED surface `i`, whose end sets nothing else off: the part is at
rest and RUNNING, the lane is empty, no buffer is CLOSING, and `b` is not DRAINING. -/
def State.InFlight (s : State) (k : Fin 32) (i : Fin 8) (b : Nat) (r : BufRec) : Prop :=
  s.AtRest ∧ s.device = .running ∧ (s.tag k).st = .issued ∧ (s.tag k).surface = some i ∧ (s.tag k).buffer = some b ∧
    (s.surf i).life = .attached ∧ (s.surf i).lane = [] ∧ (s.surf i).closing = [] ∧ (s.surf i).bufs[b]? = some r ∧
    r.st ≠ .draining

/-- R161: tag `k` is ISSUED and its response limit has been reached. -/
def State.Expired (s : State) (k : Fin 32) : Prop :=
  (s.tag k).st = .issued ∧ s.limit ≠ 0 ∧ s.limit.toNat * 64 ≤ (s.timebase - (s.tag k).issueTime).toNat

/-- R16, R18, R21: a request named by its acceptance number whose remaining parts were dropped: with none issued it has been
answered ABORTED, else its record takes ABORTED into its result and waits for the parts in flight. -/
def State.Aborted (s t : State) (id : Nat) : Prop :=
  ∀ r, s.fab.records.find? (fun x => x.id == id) = some r →
    (r.issued = 0 → r.worst = .okay → ({ tag := r.tag, code := .aborted, data := [] } : UpResponse) ∈ t.fab.sent) ∧
    (r.issued ≠ 0 → t.fab.records.find? (fun x => x.id == id) =
      some { r with mark := true, worst := if r.worst = .okay then .aborted else r.worst })

/-! ### Buffers that leave use, and the head that waits for one -/

/-- R105, R106: FREE when every in-flight count is 0 and the source hold is clear, and otherwise DRAINING. -/
def BufRec.unused (x : BufRec) : BufState := if x.countsZero = true ∧ x.hold = false then .free else .draining

/-- R106: a DRAINING buffer as its test leaves it; any other buffer is as it was. -/
def BufRec.tested (x : BufRec) : BufRec := if x.st = .draining then { x with st := x.unused } else x

/-- R86: the buffer that an access of this kind names, when the access has ended. -/
def BufRec.counted (x : BufRec) (kind : OwnerKind) : BufRec :=
  match kind with
  | .pass => x
  | .producerWrite => { x with prodWrites := x.prodWrites - 1 }
  | .producerRead => { x with prodReads := x.prodReads - 1 }
  | .mergeRead | .mergeWrite => { x with merges := x.merges - 1 }
  | .scanoutRead => { x with scanReads := x.scanReads - 1 }
  | .copyRead => { x with copyReads := x.copyReads - 1 }
  | .copyWrite => { x with copyWrites := x.copyWrites - 1 }

/-- R41, R42, R91, R94: buffer `c` of surface `i` has been opened for its lane head: it is FILLING with nothing of the fill in it, the
orientation is latched, the hold-wait counter is 0, and the head of the lane, if one is left, is mapped into it or bound to it. -/
def State.Opened (t : State) (i : Fin 8) (c : Nat) : Prop :=
  let su := t.surf i
  (∃ y, su.bufs[c]? = some y ∧ y.st = .filling ∧ y.content = 0 ∧ y.written = [] ∧ y.touched = false ∧ y.damaged = false ∧
    y.age = 0) ∧
  su.filling = some c ∧ su.holdWait = 0 ∧ su.latch.map (fun l => l.orient) = some (orientOf su.desc.orient) ∧
  match su.head with
  | .fresh => su.lane = []
  | .waiting => False
  | .mapped m => m.buf = c
  | .bound bd => bd.buf = c

/-- R89, R90, R92, R93: what a lane head of surface `i` without a FILLING buffer finds after an event that leaves the surface as `u`.
With a buffer FREE, the one that R90 names is opened. With none FREE a head that asks anew (`asks`: after DISCARD FILLING, or under
SET_POLICY) takes, under RECLAIM, the first buffer of the present queue whose source hold is clear; a head that was waiting does
not. Otherwise the head waits, and its lane and hold-wait counter are those of `u`. No other buffer leaves the state and the
content that it has in `u`, but for a CLOSING one, which may have become READY. -/
def State.HeadDecided (t : State) (i : Fin 8) (u : Surface) (asks : Bool) : Prop :=
  let noneFree := ∀ x ∈ u.bufs, x.st ≠ .free
  let reclaims := asks = true ∧ u.desc.flags.getLsbD 0 = true
  (∀ c, u.FirstChoice c → t.Opened i c) ∧
  (∀ pre c post x, noneFree → reclaims → u.present = pre ++ c :: post → (∀ k ∈ pre, (u.buf k).hold = true) →
    u.bufs[c]? = some x → x.hold = false → t.Opened i c ∧ (t.surf i).present = pre ++ post) ∧
  (noneFree → (reclaims → ∀ k ∈ u.present, (u.buf k).hold = true) →
    (t.surf i).head = .waiting ∧ (t.surf i).lane = u.lane ∧ (t.surf i).holdWait = u.holdWait ∧ (t.surf i).filling = none) ∧
  ∀ k x, u.bufs[k]? = some x → x.st ≠ .closing → (t.surf i).filling ≠ some k →
    ∃ x', (t.surf i).bufs[k]? = some x' ∧ x'.st = x.st ∧ x'.content = x.content

/-! ### A close and the head behind it -/

/-- R53, R69, R95 to R100: `u` is what a close of the FILLING buffer `b` (held as `r`), with its test for READY, leaves of surface `i` when
no other buffer is CLOSING, and `events` is the event queue then. The frame takes the next sequence, and with carry-forward its history
entry holds the stripes that the fill wrote with those of the slot and of the outstanding merges (log 22), of five entries the oldest
removed; at the wrap the history starts again. A holding slot spills into a merge, and a head that was mapped drops its mapping. -/
def State.Closed (s : State) (i : Fin 8) (b : Nat) (r : BufRec) (u : Surface) (events : List EventRecord) : Prop :=
  let su := s.surf i
  let wraps := su.frameCounter = 0xFFFFFFFF
  let seq := if wraps then 1 else su.frameCounter + 1
  let merges := fun (k : Nat) (x : BufRec) => match su.slot with
    | some q => if q.buf = k then x.merges + 1 else x.merges
    | none => x.merges
  let ready := r.prodWrites = 0 ∧ merges b r = 0 ∧ r.copyWrites = 0 ∧ s.fab.jobOf i b = none
  let stripeAt := fun k addr : Nat =>
    (addr - (su.buf k).base.toNat) / (64 * su.desc.pitch.toNat) / ((su.desc.height.toNat + 31) / 32)
  let older := if wraps then [] else su.history
  u = { su with
    frameCounter := seq, latch := none, slot := none, closePending := false
    head := match su.head with
      | .mapped _ => .fresh
      | h => h
    history := u.history
    merges := su.merges ++ (match su.slot with
      | some q => [{ id := s.fab.nextMerge, buf := q.buf, addr := q.addr, bytes := q.bytes, st := .waiting,
                     noWrite := false, formed := none, presented := none }]
      | none => [])
    bufs := su.bufs.mapIdx (fun k x =>
      if k = b then { r with content := seq, merges := merges b r, st := if ready then .ready else .closing }
      else ({ x with merges := merges k x,
                     content := if wraps ∧ (x.st = .free ∨ x.st = .shown ∨ x.st = .draining) then 0 else x.content } : BufRec).tested)
    closing := if ready then [] else [b]
    present := if ready then su.present ++ [b] else su.present } ∧
  (if su.desc.flags.getLsbD 2 = true then
    ∃ e : HistoryEntry, e.seq = seq ∧ u.history = (older ++ [e]).drop (older.length - 3) ∧
      ∀ x, x ∈ e.stripes ↔ x ∈ r.written ∨ (∃ q, su.slot = some q ∧ x = stripeAt q.buf q.addr) ∨
        ∃ m ∈ su.merges, m.st ≠ .writing ∧ x = stripeAt m.buf m.addr
   else u.history = older) ∧
  events = if ready then appendEvent s.fab.events
      { kind := .frameReady, surface := BitVec.ofNat 8 i.val, pipe := su.desc.pipe, buffer := BitVec.ofNat 8 b,
        seq := BitVec.ofNat 32 seq, detail := if r.damaged then 1 else 0, stamp := s.timebase }
    else s.fab.events

/-- R89 to R93, R95, R96: a close has left surface `i` as `u` and the event queue as `events`. With an empty lane nothing more happens
there, but for the stamp of a merge claim. Otherwise the head asks for a buffer, and an open decides carry-forward. -/
def State.AfterClose (s t : State) (i : Fin 8) (u : Surface) (events : List EventRecord) : Prop :=
  let noneFree := ∀ x ∈ u.bufs, x.st ≠ .free
  let asked := s.modSurf i (fun _ => u)
  u.merges.map Merge.unstamped <+: (t.surf i).merges.map Merge.unstamped ∧
  (u.lane = [] → t.fab.events = events ∧ t.surf i = { u with merges := (t.surf i).merges } ∧
    (t.surf i).merges.length = u.merges.length) ∧
  (u.lane ≠ [] →
    t.HeadDecided i u true ∧
    (∀ c, u.FirstChoice c → asked.CopyDecided t i c events) ∧
    (noneFree → u.desc.flags.getLsbD 0 = true → ∀ pre c post x, u.present = pre ++ c :: post →
      (∀ k ∈ pre, (u.buf k).hold = true) → u.bufs[c]? = some x → x.hold = false →
      asked.CopyDecided t i c (appendEvent events
        { kind := .frameDropped, surface := BitVec.ofNat 8 i.val, pipe := u.desc.pipe, buffer := BitVec.ofNat 8 c,
          seq := BitVec.ofNat 32 x.content, detail := 0, stamp := s.timebase })) ∧
    (noneFree → (u.desc.flags.getLsbD 0 = true → ∀ k ∈ u.present, (u.buf k).hold = true) → t.fab.events = events))

/-! ### The end of a drain and of RESETTING -/

/-- The ISSUED tag `k` of a part at rest belongs to an access into buffer `b` of the DETACHING surface `i`. No buffer of it is
CLOSING (R109); a merge makes no further write but one already issued (R71), and a chunk is an orphan (R148, R149). -/
def State.Draining (s : State) (k : Fin 32) (i : Fin 8) (b : Nat) : Prop :=
  let e := s.tag k
  s.AtRest ∧ e.st = .issued ∧ e.surface = some i ∧ e.buffer = some b ∧ e.kind ≠ .pass ∧
    (s.surf i).life = .detaching ∧ (s.surf i).closing = [] ∧
    (e.kind = .mergeRead ∨ e.kind = .mergeWrite → ∃ id m, e.route = .merge id ∧
      (s.surf i).merges.find? (fun m => m.id == id) = some m ∧ m.buf = b ∧ (m.noWrite = true ∨ m.st = .writing)) ∧
    (e.kind = .copyRead ∨ e.kind = .copyWrite → ∃ id c, e.route = .chunk id ∧
      s.fab.copy.slots.find? (fun c => c.id == id) = some c ∧ c.surface = i ∧ c.orphan = true)

/-- R186: tag `k` is the only ISSUED one of a RESETTING device. -/
abbrev State.LastOfReset (s : State) (k : Fin 32) : Prop :=
  s.device = .resetting ∧ ∀ j, j ≠ k → (s.tag j).st ≠ .issued

/-- The record of the end of a soft reset (R186). -/
def State.resetDone (s : State) : EventRecord :=
  { kind := .resetDone, surface := 0xFF, pipe := 0xFF, buffer := 0xFF, seq := 0, detail := 0, stamp := s.timebase }

/-- R33, R39, R71, R86, R101, R106, R109, R147, R148, R160, R162, R165, R186: what the end of the access of tag `k` into buffer `b` with
result `res` leaves of the DETACHING surface `i`. The count of its kind falls, a failure damages the buffer it writes and is reported, an
ended merge is gone, and DRAINING buffers are tested. When every buffer is FREE and every merge WRITING, the surface is DEFINED
without buffer records, and DETACHED is appended outside RESETTING. The last ISSUED tag of a RESETTING device makes it RUNNING, and
RESET_DONE is appended. -/
def State.DrainDecided (s t : State) (k : Fin 32) (i : Fin 8) (b : Nat) (res : Worst) : Prop :=
  let e := s.tag k
  let su := s.surf i
  let record := fun kind : EventKind => ({
    kind := kind, surface := BitVec.ofNat 8 i.val, pipe := idByte e.pipe, buffer := BitVec.ofNat 8 b,
    seq := BitVec.ofNat 32 (su.buf b).content, detail := BitVec.ofNat 16 k.val, stamp := s.timebase } : EventRecord)
  let chunk := s.fab.copy.slots.find? (fun c => decide (e.route = .chunk c.id))
  -- the failure
  let damaged : Option Nat := match res, e.kind with
    | .okay, _ | _, .pass | _, .producerRead | _, .scanoutRead => none
    | _, .producerWrite | _, .mergeRead | _, .mergeWrite => some b
    | _, .copyRead | _, .copyWrite => chunk.map (fun c => c.target)
  let faults : List EventRecord :=
    (match res, e.kind with
      | .timeout, _ => [record .tagTimeout]
      | .fault, .producerWrite | .fault, .mergeRead | .fault, .mergeWrite => [record .writeFault]
      | .fault, .producerRead | .fault, .scanoutRead => [record .readFault]
      | _, _ => []) ++
    (match res, e.kind, chunk with
      | .okay, _, _ => []
      | _, .copyRead, some c | _, .copyWrite, some c =>
        [{ kind := .copyFault, surface := BitVec.ofNat 8 i.val, pipe := su.desc.pipe, buffer := BitVec.ofNat 8 c.target,
           seq := BitVec.ofNat 32 (su.buf c.target).content, detail := BitVec.ofNat 16 c.stripe, stamp := s.timebase }]
      | _, _, _ => [])
  -- the records and merges that are left
  let bufs : List BufRec := su.bufs.mapIdx (fun n x =>
    let x := if damaged = some n then { x with damaged := true } else x
    (if n = b then x.counted e.kind else x).tested)
  let merges : List Merge := if e.kind = .mergeRead ∨ e.kind = .mergeWrite then
      su.merges.filter (fun m => !decide (e.route = .merge m.id)) else su.merges
  let ends : Prop := (∀ x ∈ bufs, x.st = BufState.free) ∧ ∀ m ∈ merges, m.st = MergeState.writing
  let detached : List EventRecord :=
    if ends ∧ s.device = .running then
      [{ kind := .detached, surface := BitVec.ofNat 8 i.val, pipe := su.desc.pipe, buffer := 0xFF, seq := 0, detail := 0,
         stamp := s.timebase }]
    else []
  (t.surf i).life = (if ends then Lifecycle.defined else .detaching) ∧ (t.surf i).desc = su.desc ∧
    (t.surf i).bufs = (if ends then [] else bufs) ∧
    (t.surf i).merges.map Merge.unstamped = merges.map Merge.unstamped ∧
    t.device = (if s.LastOfReset k then DeviceState.running else s.device) ∧
    t.fab.events = (faults ++ detached ++ if s.LastOfReset k then [s.resetDone] else []).foldl appendEvent s.fab.events

/-- R4, R10, R11, R17, R51, R52, R67, R68, R79, R86, R142, R155, R156, R158: the access `a` that a claim asks for, by the kind of its
part, and the fabric `f` that is left when its owner has learned of the issue. A scanout or pass-through part leaves its entry, and
the last part takes the entry out of its queue and marks the record; a merge becomes READING or WRITING; a chunk becomes READING or
WRITING and counts into its source or target; a lane part counts into its buffer, and the lane head advances, a STREAM head taking
its mapping into effect with its first part. A producer WRITE and a merge write add their stripes and set the touched flag. The
route is the model's own field (log 9). -/
def State.Issues (s : State) (c : Claim) (a : Access) (f : Fabric) : Prop :=
  let full := fun l : List Byte => l.map (fun v => ({ value := v, enabled := true } : DataByte))
  let counted := fun (id : Nat) (last : Bool) => s.fab.records.map (fun r =>
    if r.id = id then { r with issued := r.issued + 1, mark := r.mark || last } else r)
  match c with
  | .scanout => ∃ (e : ScanEntry) (es : List ScanEntry) (p : Part) (ps : List Part), s.fab.scanQ = e :: es ∧ e.parts = p :: ps ∧
      a = { kind := .scanoutRead, upRef := some e.id, surface := some e.surface, buffer := e.target, stripe := none,
            route := .bytes p.pos p.len, source := e.source, down := .read, addr := p.addr, len := p.len,
            bytes := [] } ∧
      f = { s.fab with
        scanQ := if ps = [] then es else { e with parts := ps, started := true } :: es
        records := counted e.id (decide (ps = [])) }
  | .pass => ∃ (e : PassEntry) (es : List PassEntry) (p : Part) (ps : List Part), s.fab.passQ = e :: es ∧ e.parts = p :: ps ∧
      a = { kind := .pass, upRef := some e.id, surface := none, buffer := none, stripe := none,
            route := if e.req.kind = .read then .bytes p.pos p.len else .nowhere,
            source := e.req.source, down := e.req.kind, addr := p.addr, len := p.len,
            bytes := if e.req.kind = .read then [] else (e.req.bytes.drop p.pos).take p.len } ∧
      f = { s.fab with
        passQ := if ps = [] then es else { e with parts := ps, started := true } :: es
        records := counted e.id (decide (ps = [])) }
  | .merge i => ∃ (pre : List Merge) (m : Merge) (post : List Merge), (s.surf i).merges = pre ++ m :: post ∧ (∀ q ∈ pre, q.st = .writing) ∧
      let entry : Access :=
        { kind := .mergeRead, upRef := none, surface := some i, buffer := some m.buf, stripe := none,
          route := .merge m.id, source := 0, down := .read, addr := m.addr, len := 4, bytes := [] }
      let into := fun st : MergeState => (s.surf i).merges.map (fun q =>
        if q.id = m.id then { q with st := st, presented := none } else q)
      let stripe := (m.addr - ((s.surf i).buf m.buf).base.toNat) / (64 * (s.surf i).desc.pitch.toNat) /
        (((s.surf i).desc.height.toNat + 31) / 32)
      (m.st = .waiting ∧ (m.formed = none → a = entry) ∧
          f = s.fab.modSurf i (fun su => { su with merges := into .reading }) ∨
        m.st = .reading ∧ ∃ px, m.formed = some px ∧
          a = { entry with kind := .mergeWrite, down := .write, bytes := full px } ∧
          f = s.fab.modSurf i (fun su => { su with
            merges := into .writing
            bufs := su.bufs.modify m.buf (fun r =>
              { r with written := addStripes [stripe] r.written, touched := true }) }))
  | .copy => ∃ (pre : List Chunk) (ch : Chunk) (post : List Chunk), s.fab.copy.slots = pre ++ ch :: post ∧
      let into := fun st : ChunkPhase => { s.fab with copy := { s.fab.copy with
        slots := s.fab.copy.slots.map (fun q : Chunk => if q.id = ch.id then { q with phase := st } else q) } }
      (ch.phase = .holding ∧ (∀ q ∈ pre, q.phase ≠ .holding) ∧
          a = { kind := .copyWrite, upRef := none, surface := some ch.surface, buffer := some ch.target,
                stripe := some ch.stripe, route := .chunk ch.id, source := 0, down := .write, addr := ch.tgtAddr,
                len := ch.len, bytes := full ch.data } ∧
          f = (into .writing).modSurf ch.surface (fun su => { su with
            bufs := su.bufs.modify ch.target (fun r => { r with copyWrites := r.copyWrites + 1 }) }) ∨
        ch.phase = .waiting ∧ (∀ q ∈ s.fab.copy.slots, q.phase ≠ .holding) ∧ (∀ q ∈ pre, q.phase ≠ .waiting) ∧
          a = { kind := .copyRead, upRef := none, surface := some ch.surface, buffer := some ch.source,
                stripe := some ch.stripe, route := .chunk ch.id, source := 0, down := .read, addr := ch.srcAddr,
                len := ch.len, bytes := [] } ∧
          f = (into .reading).modSurf ch.surface (fun su => { su with
            bufs := su.bufs.modify ch.source (fun r => { r with copyReads := r.copyReads + 1 }) }))
  | .lane i => ∃ (q : LaneReq) (qs : List LaneReq) (b : Nat) (run : Run), (s.surf i).lane = q :: qs ∧
      let entry : Access :=
        { kind := .producerRead, upRef := some q.id, surface := some i, buffer := some b, stripe := none,
          route := .pixels (run.map (fun p => p.px)) (q.req.addr.toNat - (s.surf i).desc.apBase.toNat),
          source := q.req.source, down := .read, addr := (run.head?.map (fun p => p.addr)).getD 0,
          len := 4 * run.length, bytes := [] }
      a = (if q.req.kind = .read then entry
           else { entry with
             kind := .producerWrite, route := .nowhere, down := .write,
             bytes := full (run.flatMap (fun p => forward s.tables (s.surf i).desc p.bytes)) }) ∧
      let bufs := (s.surf i).bufs.modify b (fun r =>
        if q.req.kind = .read then { r with prodReads := r.prodReads + 1 }
        else { r with prodWrites := r.prodWrites + 1, touched := true,
                      written := addStripes (run.map (fun p => p.stripe)) r.written })
      ((∃ bd rest, (s.surf i).head = .bound bd ∧ bd.parts = run :: rest ∧ b = bd.buf ∧
          f = { s.fab.modSurf i (fun su => { su with
            bufs := bufs, head := .bound { bd with issued := true, parts := rest } }) with
            records := counted q.id false }) ∨
        ∃ m p rest, (s.surf i).head = .mapped m ∧ m.plan = .stream p ∧ p.runs = run :: rest ∧ b = m.buf ∧
          f = { s.fab.modSurf i (fun su => { su with
            bufs := bufs, slot := p.slotAfter, closePending := su.closePending || p.wraps
            latch := su.latch.map (fun l => { l with
              stream := l.stream.map (fun x => { x with cx := p.cx, cy := p.cy }) })
            head := .bound { buf := m.buf, issued := true, todo := [], parts := rest } }) with
            records := counted q.id false })

/-- Only the fabric, the tag table, the downstream requests and the free-value counter may have changed. -/
def State.SameElsewhere (s t : State) : Prop :=
  t.device = s.device ∧ t.timebase = s.timebase ∧ t.limit = s.limit ∧ t.pipes = s.pipes ∧ t.tables = s.tables ∧
    t.link = s.link ∧ t.mask = s.mask ∧ t.cdo = s.cdo ∧ t.pending = s.pending

/-- The link that has just gone to RESPONDING with a reply. -/
def Link.responding (l : Link) (st : Status) (data : List Byte) : Link :=
  { l with state := .responding, asm := [], bitCount := 0, shift := 0, cselHigh := false,
           response := Reply.frame { status := st, data := data }, respPos := 0 }

/-! ## Invariants -/

/-- R190: at most 32 records, at most one of them OVERFLOW, and 32 only with an OVERFLOW record. -/
abbrev QueueSafe (q : List EventRecord) : Prop :=
  q.length ≤ 32 ∧ q.countP (fun r => decide (r.kind = .overflow)) ≤ 1 ∧ (q.length = 32 → holdsOverflow q = true)

/-- A tag that is ISSUED to another owner than a scanout read (R157). -/
def TagEntry.isOther (e : TagEntry) : Bool := e.isIssued && decide (e.kind ≠ .scanoutRead)

/-- R157, R166: the reserve of four tags keeps the other owners at 28 ISSUED tags. -/
abbrev ReserveKept (s : State) : Prop := countTags s.tags TagEntry.isOther ≤ 28

/-- R192: bits 14 and 15 of the attention mask are zero. -/
abbrev MaskSafe (s : State) : Prop := s.mask.toNat < 0x4000

/-- R169, R171, R172, R175: the assembly holds an unfinished message, at most 82 bytes long; it is empty outside RECEIVING and
PAUSED, and a response is held in RESPONDING alone, with whole bytes of it clocked and some left. Between commands no bit of a byte
is held (log 19). CSEL is high in PAUSED and low in RECEIVING and RESPONDING, and the link waits for it to be high in IDLE
alone. -/
abbrev LinkSafe (l : Link) : Prop :=
  (l.asm.length < 2 ∨ (byteAt l.asm 1).toNat ≤ 80 ∧ l.asm.length < (byteAt l.asm 1).toNat + 3) ∧
    (l.state = .idle ∨ l.state = .responding → l.asm = []) ∧
    (l.state ≠ .responding → l.response = [] ∧ l.respPos = 0) ∧
    (l.state = .responding → l.respPos % 8 = 0 ∧ l.respPos < 8 * l.response.length) ∧
    l.bitCount = 0 ∧ (l.state = .paused → l.cselHigh = true) ∧
    (l.state = .receiving ∨ l.state = .responding → l.cselHigh = false) ∧
    (l.waitHigh = true → l.state = .idle ∧ l.cselHigh = false)

/-- How many buffers of a surface are in a state. -/
def Surface.countIn (su : Surface) (st : BufState) : Nat := su.bufs.countP (fun r => decide (r.st = st))

/-- R88: at most one FILLING and at most one SHOWN buffer, and none FILLING while the head waits for a buffer (R93). -/
abbrev BuffersSafe (su : Surface) : Prop :=
  su.countIn .filling ≤ 1 ∧ su.countIn .shown ≤ 1 ∧ (su.head = .waiting → su.countIn .filling = 0)

/-- R96, R99, R100: the present queue holds READY buffers and the close order CLOSING ones, each once. -/
abbrev ListsSafe (su : Surface) : Prop :=
  su.present.Nodup ∧ su.closing.Nodup ∧
    (∀ b ∈ su.present, (su.bufs[b]?).map (fun r => r.st) = some .ready) ∧
    ∀ b ∈ su.closing, (su.bufs[b]?).map (fun r => r.st) = some .closing

/-- R10, R11, R12, R94, R98, R142: the capacities of the queues, lanes, slots, histories and of the hold-wait counters. -/
abbrev RoomKept (f : Fabric) : Prop :=
  f.passQ.length ≤ 16 ∧ f.scanQ.length ≤ 8 ∧ f.copy.slots.length ≤ 4 ∧
    ∀ i, (f.surf i).lane.length ≤ 8 ∧ (f.surf i).history.length ≤ 4 ∧ (f.surf i).holdWait ≤ 15

/-- R136, R149: only an ATTACHED surface has copy jobs, and its deferred list holds its own. -/
abbrev JobsSafe (f : Fabric) : Prop :=
  (∀ j ∈ f.copy.queue, (f.surf j.surface).life = .attached) ∧
    ∀ i, ∀ j ∈ (f.surf i).deferred, j.surface = i ∧ (f.surf i).life = .attached

/-- A safe part. -/
structure State.Safe (s : State) : Prop where
  queue   : QueueSafe s.fab.events
  reserve : ReserveKept s
  mask    : MaskSafe s
  link    : LinkSafe s.link
  buffers : ∀ i, BuffersSafe (s.surf i)
  lists   : ∀ i, ListsSafe (s.surf i)
  room    : RoomKept s.fab
  jobs    : JobsSafe s.fab

end Sys2Proof.Machine
end

