-- ==== Sys2Proof/WellFormed.lean ====
section
/-! DEFINITION. Which commands are well formed: the packets as the links carry them (01, Link packets) and the messages as
their rows describe them (R170, R176, R179). `exec` gives a meaning to every term all the same (log 17). -/

namespace Sys2Proof

open Machine

/-- An upstream packet: a WRITE carries one byte with its enable for each byte of its length, a READ carries none. A length
outside 1 to 256 is a packet too, which is answered REFUSED (R2). -/
def UpRequest.wellFormed (r : UpRequest) : Bool :=
  match r.kind with
  | .write => r.bytes.length == r.len
  | .read => r.bytes.isEmpty

/-- Parameter bytes of a message: at most 80 (R170). -/
def paramsFit (params : List Byte) : Bool := decide (params.length ≤ 80)

/-- Whether the parameters name DISCARD's choice READY. -/
def choosesReady (params : List Byte) : Bool := params.length == 2 && byteAt params 1 == 1

/-- The commands as the links can carry them. -/
def Instr.wellFormed : Instr → Bool
  | .upstreamRequest r => r.wellFormed
  | .downstreamResponse _ code data =>
    match code with
    | .okay => decide (data.length ≤ 256)
    | .error => data.isEmpty
  | .boundary _ between =>
    match between with
    | some x => x.requests.all UpRequest.wellFormed
    | none => true
  | .discardFilling params => paramsFit params && !choosesReady params
  | .discardReady params => choosesReady params
  | .ident params | .status params | .defineSurface params | .readSurface params | .attach params | .detach params
  | .erase params | .setOrient params | .setWindow params | .setScroll params | .setVisible params | .setPolicy params
  | .close params | .bindPipe params | .loadExpand params | .loadPalette params | .setTimeout params
  | .readEvents params | .setAttention params | .reset params => paramsFit params
  | .unknownCodeMessage code params => paramsFit params && (commandOf code).isNone
  | .badCheckMessage code params check => paramsFit params && byteSum (messageBody code params ++ [check]) != 0
  | .lengthAbove80 _ length => decide (80 < length.toNat)
  | .breakLink bits => decide (1 ≤ bits.length) && decide (bits.length ≤ 7)
  | .grant | .tagTimeout _ | .holdLimitExpiry _ | .linkPause | .linkResume | .linkHoldLimit | .cut _ | .hardReset _
  | .messageByteTaken _ | .responseClockedOut | .cselReleasedIdle => true

end Sys2Proof
end

