-- ==== Sys2Proof/Certificates/Slice0/Obligations.lean ====
section
/-! DEFINITION. The statements for the provers. "At rest" (State.AtRest) means that the part has nothing left to do at once and
no request waits on the link; "takes" (State.Takes) that the link can complete the message now. -/

open Sys2Proof Sys2Proof.Machine

/-! ## The step -/

/-- A step with a command at the front of the queue is that command's effect on the part with the queue's rest. The queue is the
model's choice (log 1). On an empty queue a step is one microsecond, which is the model's choice too (log 3): every tag that is due
expires in increasing tag number, a paused message that is due is abandoned, and the timebase rises by 1 modulo 2³². -/
def Obligations.StepTakesFrontCommand : Prop :=
  (∀ (c : Instr) (cs : List Instr) (s : State), step { s with pending := c :: cs } = exec c { s with pending := cs }) ∧
  ∀ s : State, s.pending = [] →
    ∃ u, execAll ((List.finRange 32).map .tagTimeout ++ [.linkHoldLimit]) s = .next u ∧
      step s = .next { u with timebase := s.timebase + 1 } ∧
      (∀ k, (s.Expired k → u.tag k = { s.tag k with st := .quarantined, upRef := none }) ∧
        (¬ s.Expired k → u.tag k = s.tag k)) ∧
      u.link = (if s.link.state = .paused ∧ 20000 ≤ (s.timebase - s.link.pauseStart).toNat then
          { s.link with state := .idle, asm := [], bitCount := 0, shift := 0, cselHigh := true, response := [],
                        respPos := 0, lastError := .holdLimit }
        else s.link) ∧
      u.issued = s.issued ∧ u.limit = s.limit ∧ u.pipes = s.pipes ∧ u.tables = s.tables ∧ u.mask = s.mask ∧
      u.cdo = s.cdo ∧ u.pending = []

/-! ## Reset -/

/-- The part right after hard reset. The values that the spec gives: R20, R40, R60, R73, R111, R112, R153, R161, R167, R187,
R189, R192, R194. The zeros that stand for values out of use are the model's choice (log 8). -/
def Obligations.ResetValues : Prop :=
  State.reset.device = .running ∧ State.reset.timebase = 0 ∧ State.reset.limit = 16 ∧ State.reset.mask = 0x3FFC ∧
    State.reset.fab.events = [] ∧ State.reset.fab.passQ = [] ∧ State.reset.fab.scanQ = [] ∧
    State.reset.fab.records = [] ∧ State.reset.fab.copy.queue = [] ∧ State.reset.fab.copy.current = none ∧
    State.reset.fab.copy.slots = [] ∧
    (∀ i, (State.reset.surf i).life = .empty ∧ (State.reset.surf i).lane = [] ∧ (State.reset.surf i).slot = none ∧
      (State.reset.surf i).merges = [] ∧ (State.reset.surf i).bufs = [] ∧ (State.reset.surf i).deferred = [] ∧
      (State.reset.surf i).latch = none) ∧
    (∀ t, State.reset.tag t = TagEntry.cleared) ∧
    (∀ p, State.reset.pipes.get p = { source := 0, enabled := false, counter := 0 }) ∧
    (∀ v : Fin 32, (State.reset.tables.red.get v).toNat = v.val * 8 + v.val / 4) ∧
    (∀ v : Fin 64, (State.reset.tables.green.get v).toNat = v.val * 4 + v.val / 16) ∧
    (∀ v : Fin 32, (State.reset.tables.blue.get v).toNat = v.val * 8 + v.val / 4) ∧
    (∀ v : Fin 256, State.reset.tables.palA.get v =
        { blue := BitVec.ofNat 8 v.val, green := BitVec.ofNat 8 v.val, red := BitVec.ofNat 8 v.val } ∧
      State.reset.tables.palB.get v = State.reset.tables.palA.get v) ∧
    State.reset.link.state = .idle ∧ State.reset.link.asm = [] ∧ State.reset.link.bitCount = 0 ∧
    State.reset.link.response = [] ∧ State.reset.link.lastError = .none

/-- The part right after hard reset is safe. -/
def Obligations.ResetSafe : Prop := State.reset.Safe

/-- HARD_RESET with no request waiting on the link: the reset values, with nothing kept but the traces of what has left the part,
the waiting commands and the free-value counter; the link waits for CSEL to be high unless it is when RESETN is released (R169,
R187). What is kept is the model's choice (log 20). -/
def Obligations.HardResetClears : Prop :=
  ∀ (s : State) (level : Bool), s.fab.offered = [] →
    exec (.hardReset level) s = .next
      { State.reset with
        fab := { Fabric.reset with sent := s.fab.sent }, issued := s.issued, cdo := s.cdo, freeCount := s.freeCount,
        pending := s.pending,
        link := { Link.reset with cselHigh := level, waitHigh := !level } }

/-- RESET taken in RUNNING (R16, R21, R184, R186): the event queue is emptied, every queue and lane is emptied with its requests
ABORTED, no surface stays ATTACHED, and the device is RUNNING again with RESET_DONE alone in the queue exactly when no tag is ISSUED.
That this is one step is the model's choice (log 1). -/
def Obligations.ResetTaken : Prop :=
  ∀ s : State, s.device = .running → s.fab.offered = [] → s.Takes 0x7F [] →
    ∃ t, exec (.reset []) s = .next t ∧
      t.link = s.link.responding .accepted [] ∧
      (if countTags s.tags TagEntry.isIssued = 0 then
        t.device = .running ∧ t.fab.events =
          [{ kind := .resetDone, surface := 0xFF, pipe := 0xFF, buffer := 0xFF, seq := 0, detail := 0,
             stamp := s.timebase }]
       else t.device = .resetting ∧ t.fab.events = []) ∧
      t.fab.passQ = [] ∧ t.fab.scanQ = [] ∧
      (∀ e ∈ s.fab.passQ, s.Aborted t e.id) ∧ (∀ e ∈ s.fab.scanQ, s.Aborted t e.id) ∧
      (∀ i, ∀ q ∈ (s.surf i).lane, s.Aborted t q.id) ∧
      (∀ i, (t.surf i).lane = [] ∧ (t.surf i).desc = (s.surf i).desc ∧ (t.surf i).life ≠ .attached ∧
        ((s.surf i).life = .empty ∨ (s.surf i).life = .defined → (t.surf i).life = (s.surf i).life)) ∧
      t.tags = s.tags ∧ t.issued = s.issued ∧ t.limit = s.limit ∧ t.pipes = s.pipes ∧ t.tables = s.tables ∧
      t.mask = s.mask ∧ t.timebase = s.timebase ∧ t.pending = s.pending

/-! ## Invariants that every step keeps -/

/-- R190: at most 32 records, at most one OVERFLOW record, 32 only with one. -/
def Obligations.QueueKept : Prop :=
  ∀ s t : State, QueueSafe s.fab.events → step s = .next t → QueueSafe t.fab.events

/-- R157, R166: owners other than scanout reads hold at most 28 ISSUED tags. -/
def Obligations.ReserveKeptByStep : Prop :=
  ∀ s t : State, ReserveKept s → step s = .next t → ReserveKept t

/-- R192: bits 14 and 15 of the attention mask stay zero. R169, R171, R172, R175: the assembly holds an unfinished message, a
response is held in RESPONDING alone, and CSEL's level fits the link state. That no command leaves bits of a byte behind is the
model's choice (log 19). -/
def Obligations.MaskAndLinkKept : Prop :=
  ∀ s t : State, MaskSafe s → LinkSafe s.link → step s = .next t → MaskSafe t ∧ LinkSafe t.link

/-- R88, R93: at most one FILLING and one SHOWN buffer a surface. -/
def Obligations.BuffersKept : Prop :=
  ∀ s t : State, (∀ i, BuffersSafe (s.surf i)) → step s = .next t → ∀ i, BuffersSafe (t.surf i)

/-- R96, R99, R100: the present queue holds READY buffers and the close order CLOSING ones, each once. -/
def Obligations.ListsKept : Prop :=
  ∀ s t : State, (∀ i, ListsSafe (s.surf i)) → step s = .next t → ∀ i, ListsSafe (t.surf i)

/-- R10, R11, R12, R94, R98, R142: the capacities. -/
def Obligations.RoomKeptByStep : Prop := ∀ s t : State, RoomKept s.fab → step s = .next t → RoomKept t.fab

/-- R136, R149: only ATTACHED surfaces have copy jobs. -/
def Obligations.JobsKept : Prop := ∀ s t : State, JobsSafe s.fab → step s = .next t → JobsSafe t.fab

/-! ## Blocks, frames, places, runs and conversions -/

/-- R24: the 66-byte block, each field at the offset and of the size of the table, multi-byte fields little-endian; the block and the
descriptor say the same, in both directions. -/
def Obligations.DescriptorBlockRoundTrip : Prop :=
  (∀ (d : Descriptor) (i : Fin 8),
    let field := fun at' size : Nat =>
      ((List.range size).map (fun k => (byteAt (d.block i) (at' + k)).toNat * 256 ^ k)).sum
    field 0 1 = i.val ∧ field 1 1 = d.mode.toNat ∧ field 2 1 = d.pipe.toNat ∧ field 3 1 = d.format.toNat ∧
      field 4 1 = d.palette.toNat ∧ field 5 1 = d.extra.toNat ∧ field 6 2 = d.width.toNat ∧ field 8 2 = d.height.toNat ∧
      field 10 2 = d.pitch.toNat ∧ field 12 4 = d.blank.toNat ∧ field 16 1 = d.count.toNat ∧ field 17 1 = d.orient.toNat ∧
      field 18 5 = d.apBase.toNat ∧ field 23 5 = d.base0.toNat ∧ field 28 5 = d.base1.toNat ∧
      field 33 5 = d.base2.toNat ∧ field 38 5 = d.base3.toNat ∧ field 43 2 = d.bandTop.toNat ∧
      field 45 2 = d.bandRows.toNat ∧ field 47 2 = d.scroll.toNat ∧ field 49 2 = d.visTop.toNat ∧
      field 51 2 = d.visBottom.toNat ∧ field 53 2 = d.xs.toNat ∧ field 55 2 = d.xe.toNat ∧ field 57 2 = d.ys.toNat ∧
      field 59 2 = d.ye.toNat ∧ field 61 1 = d.order.toNat ∧ field 62 1 = d.present.toNat ∧
      field 63 1 = d.minShow.toNat ∧ field 64 1 = d.flags.toNat ∧ field 65 1 = d.holdLimit.toNat) ∧
  (∀ (d : Descriptor) (i : Fin 8), (d.block i).length = 66 ∧ Descriptor.ofBlock (d.block i) = d) ∧
    ∀ (p : List Byte) (i : Fin 8), p.length = 66 → surfaceNumber p = some i → (Descriptor.ofBlock p).block i = p

/-- R177, R178: the layout of a response, its check byte, and the ten status codes. -/
def Obligations.ResponseLaidOut : Prop :=
  ∀ (st : Status) (data : List Byte), data.length ≤ 255 →
    let r := Reply.frame { status := st, data := data }
    r.length = data.length + 3 ∧
      byteAt r 0 = (match st with
        | .ok => 0x00 | .accepted => 0x01 | .busy => 0x02 | .badState => 0x03 | .badValue => 0x04 | .conflict => 0x05
        | .noFrame => 0x06 | .badCheck => 0x07 | .badLength => 0x08 | .unknown => 0x09) ∧ (byteAt r 1).toNat = data.length ∧
      (∀ k, k < data.length → byteAt r (k + 2) = byteAt data k) ∧ byteSum r = 0

/-- R43, R44, R46, R47, R50: the stored position of each logical pixel by the three orientation flags, and its address; the pixels of a
DIRECT request in increasing index, where each is placed, and the bytes of it that a WRITE hands to the converter: those in the span
with their enable set. A DIRECT mapping holds those pixels and, each once and in pixel order, the stripes of all of them for a READ and
of those with an enabled byte for a WRITE. Under every orientation the logical pixels have different places, each a pixel of a stored
row of the buffer region. That bytes missing from a packet or beyond its length are not taken is the model's choice (log 21). -/
def Obligations.StoredPlacesDistinct : Prop :=
  (∀ (d : Descriptor) (o : Orient) (lx ly : Nat),
    storedPos d o lx ly =
      (match o.exchange, o.mirrorX, o.mirrorY with
        | false, false, false => (lx, ly)
        | false, true, false => (d.width.toNat - 1 - lx, ly)
        | false, false, true => (lx, d.height.toNat - 1 - ly)
        | false, true, true => (d.width.toNat - 1 - lx, d.height.toNat - 1 - ly)
        | true, false, false => (ly, lx)
        | true, true, false => (d.width.toNat - 1 - ly, lx)
        | true, false, true => (ly, d.height.toNat - 1 - lx)
        | true, true, true => (d.width.toNat - 1 - ly, d.height.toNat - 1 - lx))) ∧
  (∀ (d : Descriptor) (base sx sy : Nat), storedAddr d base (sx, sy) = base + sy * (64 * d.pitch.toNat) + 4 * sx) ∧
  (∀ (d : Descriptor) (l : FillLatch) (base : Nat) (r : UpRequest),
    let first := r.addr.toNat - d.apBase.toNat
    1 ≤ r.len →
      directPixels d l base r = (List.range ((first + r.len - 1) / d.bpp + 1 - first / d.bpp)).map
        (fun k => directPixel d l base r first (first / d.bpp + k)) ∧
      ∀ n, (r.kind = .read → (directPixel d l base r first n).bytes = []) ∧
        (r.kind = .write → (directPixel d l base r first n).bytes.length = d.bpp ∧
          ∀ j v, j < d.bpp → ((directPixel d l base r first n).bytes[j]? = some (some v) ↔
            first ≤ n * d.bpp + j ∧ n * d.bpp + j < first + r.len ∧
              ∃ x, r.bytes[n * d.bpp + j - first]? = some x ∧ x.enabled = true ∧ x.value = v)) ∧
        (directPixel d l base r first n).px = .index n ∧
        (directPixel d l base r first n).addr = storedAddr d base (storedPos d l.orient (n % l.lw) (n / l.lw)) ∧
        (directPixel d l base r first n).stripe =
          (storedPos d l.orient (n % l.lw) (n / l.lw)).2 / ((d.height.toNat + 31) / 32)) ∧
  (∀ (su : Surface) (b : Nat) (x : BufRec) (l : FillLatch) (r : UpRequest),
    su.latch = some l → l.stream = none → su.bufs[b]? = some x →
    let ps := directPixels su.desc l x.base.toNat r
    su.mapHead b r =
      { buf := b, plan := .direct ps
        stripes := firstTimes ((ps.filter (fun p => decide (r.kind = .read ∨ ∃ v ∈ p.bytes, v ≠ none))).map (fun p => p.stripe)) }) ∧
  (firstTimes [] = [] ∧ ∀ l k, firstTimes (l ++ [k]) = if k ∈ l then firstTimes l else firstTimes l ++ [k]) ∧
  ∀ (d : Descriptor) (o : Orient) (base : Nat), d.check1 = true → d.check2 = true →
    (∀ lx ly, lx < d.lwOf o → ly < d.lhOf o →
      (storedPos d o lx ly).1 < d.w ∧ (storedPos d o lx ly).2 < d.h ∧
        base ≤ storedAddr d base (storedPos d o lx ly) ∧
        storedAddr d base (storedPos d o lx ly) + 4 ≤ base + d.regionSize) ∧
    ∀ lx ly mx my, lx < d.lwOf o → ly < d.lhOf o → mx < d.lwOf o → my < d.lhOf o →
      storedAddr d base (storedPos d o lx ly) = storedAddr d base (storedPos d o mx my) → lx = mx ∧ ly = my

/-- R48: the runs take every placed pixel once and in order; each run is 1 to 64 pixels at addresses rising by 4 and begins no
pixel but its first at a multiple of 4096; a run ends only where the next pixel may not join it. R65, R66, R67: what the converter
does with each pixel of a DIRECT WRITE, by the pixel's enabled bytes and the assembly slot; R72: with each pixel of a READ. That a READ's
slot pixel which could join the current run closes that run first is the model's choice (log 29). -/
def Obligations.RunsFormed : Prop :=
  let good := fun run : Run => run ≠ [] ∧ run.length ≤ 64 ∧
    ∀ k, k + 1 < run.length → ∃ p q, run[k]? = some p ∧ run[k + 1]? = some q ∧ q.addr = p.addr + 4 ∧ q.addr % 4096 ≠ 0
  let joins := fun (run : Run) (p : Placed) =>
    ∃ q, run.getLast? = some q ∧ p.addr = q.addr + 4 ∧ run.length < 64 ∧ p.addr % 4096 ≠ 0
  (∀ ps : List Placed, (gatherRuns [] ps).flatten = ps ∧ (∀ run ∈ gatherRuns [] ps, good run) ∧
    ∀ n a b p, (gatherRuns [] ps)[n]? = some a → (gatherRuns [] ps)[n + 1]? = some b → b.head? = some p → ¬ joins a p) ∧
  (∀ (b : Nat) (slot : Option Slot) (ps : List PixelMap) (run : Run),
    ((handleWrite b slot [] ps).part = some run → good run) ∧
    ((handleRead b slot [] ps).part = some run → good run) ∧
    handleWrite b slot run [] =
      { slot := slot, spilled := none, part := if run = [] then none else some run, todo := [] } ∧
    handleRead b slot run [] =
      { slot := slot, spilled := none, part := if run = [] then none else some run, todo := [] }) ∧
  ∀ (b : Nat) (slot : Option Slot) (run : Run) (p : PixelMap) (ps : List PixelMap),
    let this := fun t : Slot => t.px = p.px ∧ t.buf = b
    let full := fun l : List (Option Byte) => ∀ x ∈ l, x ≠ none
    let empty := fun l : List (Option Byte) => ∀ x ∈ l, x = none
    let placed := fun l : List (Option Byte) =>
      ({ px := p.px, addr := p.addr, stripe := p.stripe, bytes := l.filterMap id } : Placed)
    let sum := fun t : Slot => List.zipWith (fun held new : Option Byte => new.or held) t.bytes p.bytes
    let held : Slot := { px := p.px, buf := b, addr := p.addr, bytes := p.bytes }
    let closed : Handled := { slot := slot, spilled := none, part := some run, todo := p :: ps }
    -- a WRITE: all enabled, none enabled, and some enabled with the slot empty, holding this pixel, or another
    (full p.bytes → (run = [] ∨ joins run (placed p.bytes)) →
      ((∃ t, slot = some t ∧ this t) →
        handleWrite b slot run (p :: ps) = handleWrite b none (run ++ [placed p.bytes]) ps) ∧
      (¬ (∃ t, slot = some t ∧ this t) →
        handleWrite b slot run (p :: ps) = handleWrite b slot (run ++ [placed p.bytes]) ps)) ∧
    (¬ full p.bytes → empty p.bytes → handleWrite b slot [] (p :: ps) = handleWrite b slot [] ps) ∧
    (¬ full p.bytes → ¬ empty p.bytes →
      (slot = none → handleWrite b slot [] (p :: ps) = handleWrite b (some held) [] ps) ∧
      (∀ t, slot = some t → this t →
        (full (sum t) → (run = [] ∨ joins run (placed (sum t))) →
          handleWrite b slot run (p :: ps) = handleWrite b none (run ++ [placed (sum t)]) ps) ∧
        (¬ full (sum t) →
          handleWrite b slot [] (p :: ps) = handleWrite b (some { t with bytes := sum t }) [] ps)) ∧
      (∀ t, slot = some t → ¬ this t →
        handleWrite b slot [] (p :: ps) = { slot := some held, spilled := some t, part := none, todo := ps })) ∧
    -- a pixel that does not join the current run closes it
    (run ≠ [] → (full p.bytes → ¬ joins run (placed p.bytes)) →
      (¬ full p.bytes → ¬ empty p.bytes → ∀ t, slot = some t → this t → full (sum t) → ¬ joins run (placed (sum t))) →
      handleWrite b slot run (p :: ps) = closed) ∧
    -- a READ
    ((∃ t, slot = some t ∧ this t) →
      handleRead b slot [] (p :: ps) = { slot := none, spilled := slot, part := none, todo := p :: ps } ∧
      (run ≠ [] → handleRead b slot run (p :: ps) = closed)) ∧
    (¬ (∃ t, slot = some t ∧ this t) →
      (run = [] ∨ joins run (placed p.bytes) →
        handleRead b slot run (p :: ps) = handleRead b slot (run ++ [placed p.bytes]) ps) ∧
      (run ≠ [] → ¬ joins run (placed p.bytes) → handleRead b slot run (p :: ps) = closed))

/-- R76, R77, R78, R79, R80: the walk of a STREAM request. The bytes held and the request's bytes go in order into the placed pixels, the
bytes held after, and the overrun bytes after the wrap; the first pixel is placed at the cursor, each further one a step of the
cursor on, in ROW-FIRST or COLUMN-FIRST order; and after the window's last position the cursor wraps to its first corner. The mapping
of a head is that walk from the fill latch and the slot: its runs, the stripes it touches, each once and in pixel order, the slot that
the trailing bytes leave, the cursor, and whether it wraps. That bytes beyond a packet's length are not taken is the model's choice
(log 21). -/
def Obligations.StreamWalked : Prop :=
  (∀ (d : Descriptor) (l : FillLatch) (sl : StreamLatch) (base : Nat) (slot : Option Slot) (bytes : List Byte),
    sl.xs ≤ sl.cx → sl.cx ≤ sl.xe → sl.ys ≤ sl.cy → sl.cy ≤ sl.ye → (heldBytes slot).length < d.bpp →
    let w := streamWalk d l sl base slot bytes
    let onward := fun (x y : Nat) =>
      if sl.columnFirst then (if y < sl.ye then (x, y + 1) else (x + 1, sl.ys))
      else (if x < sl.xe then (x + 1, y) else (sl.xs, y + 1))
    (∃ rest : List Byte, rest.length = w.overrun ∧
      heldBytes slot ++ bytes = w.placed.flatMap (fun p => p.bytes) ++ w.held ++ rest) ∧
      w.held.length < d.bpp ∧ sl.xs ≤ w.cx ∧ w.cx ≤ sl.xe ∧ sl.ys ≤ w.cy ∧ w.cy ≤ sl.ye ∧
      (∀ p ∈ w.placed, p.bytes.length = d.bpp ∧
        ∃ x y, sl.xs ≤ x ∧ x ≤ sl.xe ∧ sl.ys ≤ y ∧ y ≤ sl.ye ∧ p.px = .pos x y ∧
          p.addr = storedAddr d base (storedPos d l.orient x y) ∧
          p.stripe = (storedPos d l.orient x y).2 / ((d.height.toNat + 31) / 32)) ∧
      (∀ p, w.placed.head? = some p → p.px = .pos sl.cx sl.cy) ∧
      (∀ n p q x y, w.placed[n]? = some p → w.placed[n + 1]? = some q → p.px = .pos x y →
        ¬ (x = sl.xe ∧ y = sl.ye) ∧ q.px = .pos (onward x y).1 (onward x y).2) ∧
      (∀ p x y, w.placed.getLast? = some p → p.px = .pos x y →
        if x = sl.xe ∧ y = sl.ye then w.wrapped = true else w.wrapped = false ∧ (w.cx, w.cy) = onward x y) ∧
      (w.placed = [] → w.wrapped = false ∧ w.cx = sl.cx ∧ w.cy = sl.cy) ∧
      (if w.wrapped then w.held = [] ∧ w.cx = sl.xs ∧ w.cy = sl.ys else w.overrun = 0)) ∧
  ∀ (su : Surface) (b : Nat) (x : BufRec) (l : FillLatch) (sl : StreamLatch) (r : UpRequest),
    su.latch = some l → l.stream = some sl → su.bufs[b]? = some x →
    let w := streamWalk su.desc l sl x.base.toNat su.slot ((r.bytes.take r.len).map (fun y => y.value))
    let at' := storedPos su.desc l.orient w.cx w.cy
    su.mapHead b r =
      { buf := b
        stripes := firstTimes (w.placed.map (fun p => p.stripe) ++
          if w.held = [] then [] else [at'.2 / ((su.desc.height.toNat + 31) / 32)])
        plan := .stream {
          runs := gatherRuns [] w.placed, cx := w.cx, cy := w.cy, wraps := w.wrapped, overrun := w.overrun
          slotAfter := if w.held = [] then none else some {
            px := .pos w.cx w.cy, buf := b, addr := storedAddr su.desc x.base.toNat at',
            bytes := w.held.map some ++ List.replicate (su.desc.bpp - w.held.length) none } } }

/-- R56, R57, R58, R59: the forward conversion by the format's coding, F8 through the palette that the descriptor names and F16 through
the expansion tables, with the descriptor's extra byte; the reverse conversion, which F8 does not have; and what a READ after a
WRITE of the same pixel returns, F16 under the default tables. -/
def Obligations.ConversionRoundTrip : Prop :=
  (∀ (t : Tables) (d : Descriptor) (px : List Byte),
    let word := (byteAt px 0).toNat + 256 * (byteAt px 1).toNat
    (d.format = 0 → ∀ e : PaletteEntry,
      (d.palette = 0 ∧ e = t.palA.get (Fin.ofNat 256 (byteAt px 0).toNat) ∨
        d.palette = 1 ∧ e = t.palB.get (Fin.ofNat 256 (byteAt px 0).toNat)) →
      forward t d px = [e.blue, e.green, e.red, d.extra]) ∧
    (d.format = 1 → forward t d px =
      [t.blue.get (Fin.ofNat 32 (word % 32)), t.green.get (Fin.ofNat 64 (word / 32 % 64)),
        t.red.get (Fin.ofNat 32 (word / 2048)), d.extra]) ∧
    (d.format = 2 → forward t d px = [byteAt px 0, byteAt px 1, byteAt px 2, d.extra]) ∧
    (d.format = 3 → forward t d px = [byteAt px 0, byteAt px 1, byteAt px 2, byteAt px 3])) ∧
  (∀ (d : Descriptor) (st : List Byte),
    let word := (byteAt st 0).toNat / 8 + 32 * ((byteAt st 1).toNat / 4) + 2048 * ((byteAt st 2).toNat / 8)
    (d.format = 1 → reverse d st = [BitVec.ofNat 8 (word % 256), BitVec.ofNat 8 (word / 256)]) ∧
    (d.format = 2 → reverse d st = [byteAt st 0, byteAt st 1, byteAt st 2]) ∧
    (d.format = 3 → reverse d st = [byteAt st 0, byteAt st 1, byteAt st 2, byteAt st 3])) ∧
  ∀ (t : Tables) (d : Descriptor) (px : List Byte), px.length = d.bpp →
    (d.fmt = .f32 ∨ d.fmt = .f24 ∨ d.fmt = .f16 ∧ t = Tables.reset) → reverse d (forward t d px) = px

/-! ## The control link -/

/-- R169, R171, R172, R176: a message taken byte by byte, each byte bit by bit, does what the message taken whole does. Rows that
carry a message whole are the model's choice (log 7). -/
def Obligations.MessageTakenByBytes : Prop :=
  ∀ (s : State) (code : Byte) (params : List Byte) (check : Byte),
    s.link.state = .idle → s.link.waitHigh = false → s.link.bitCount = 0 → params.length ≤ 80 →
    takeBytes (messageBody code params ++ [check]) s = exec (.badCheckMessage code params check) s ∧
      (∀ c : Command, code = c.code → check = checkByte (messageBody code params) →
        takeBytes (messageBody code params ++ [check]) s = exec (c.row params) s)

/-- R176, R179, R61, R62: the four tests of the link interface: BAD_CHECK, UNKNOWN, BAD_LENGTH by the lengths of the command table
(Command.Fits), and BUSY in RESETTING for every command but IDENT and STATUS. Each changes nothing but the link. -/
def Obligations.MessageTested : Prop :=
  ∀ (s : State) (params : List Byte),
    (∀ code check, s.Takes code params → byteSum (messageBody code params ++ [check]) ≠ 0 →
      exec (.badCheckMessage code params check) s = .next (s.replied .badCheck [])) ∧
    (∀ code, s.Takes code params → commandOf code = none →
      exec (.unknownCodeMessage code params) s = .next (s.replied .unknown [])) ∧
    (∀ c : Command, s.Takes c.code params → ¬ c.Fits params →
      exec (c.row params) s = .next (s.replied .badLength [])) ∧
    (∀ c : Command, s.Takes c.code params → c.Fits params → s.device = .resetting → c ≠ .ident →
      c ≠ .status → exec (c.row params) s = .next (s.replied .busy []))

/-- R25, R180: a surface number above 7 is BAD_VALUE, and a lifecycle state that does not admit the command BAD_STATE, or BUSY
for DETACH of a DETACHING surface. That ATTACH with a surface number above 7 is answered without a data byte is the model's choice
(log 27), since R178 gives ATTACH answered BAD_VALUE the number of the failed check. -/
def Obligations.SurfaceTested : Prop :=
  ∀ (s : State) (c : Command) (params : List Byte), s.Takes c.code params → s.device = .running →
    c.Fits params → c.namesSurface = true →
    (7 < (byteAt params 0).toNat → exec (c.row params) s = .next (s.replied .badValue [])) ∧
    (∀ i : Fin 8, (byteAt params 0).toNat = i.val → c.admittedIn (s.surf i).life = false →
      exec (c.row params) s =
        .next (s.replied (if c = .detach ∧ (s.surf i).life = .detaching then .busy else .badState) []))

/-- R181: IDENT. -/
def Obligations.IdentAnswered : Prop :=
  ∀ s : State, s.Takes 0x01 [] →
    exec (.ident []) s = .next (s.replied .ok [0xD4, 0x10, 0x24, 0x03]) ∧
      Reply.frame { status := .ok, data := [0xD4, 0x10, 0x24, 0x03] } = [0x00, 0x04, 0xD4, 0x10, 0x24, 0x03, 0xF1]

/-- R182, R183: STATUS, in every device state; the last link error is reported and becomes NONE. -/
def Obligations.StatusAnswered : Prop :=
  ∀ s : State, s.Takes 0x02 [] →
    exec (.status []) s = .next
      ({ s with link := { s.link with lastError := .none } }.replied .ok
        ([if s.device = DeviceState.running then (0 : Byte) else 1,
          (match s.link.lastError with | .none => 0 | .brk => 1 | .holdLimit => 2 | .cut => 3),
          BitVec.ofNat 8 (s.tags.toList.countP TagEntry.isFree),
          BitVec.ofNat 8 (s.tags.toList.countP TagEntry.isIssued),
          BitVec.ofNat 8 (s.tags.toList.countP TagEntry.isQuarantined),
          BitVec.ofNat 8 s.fab.events.length,
          if ∃ r ∈ s.fab.events, s.mask.getLsbD r.kind.code = true then 1 else 0] ++ wordBytes s.timebase)) ∧
    s.tags.toList.countP TagEntry.isFree + s.tags.toList.countP TagEntry.isIssued +
      s.tags.toList.countP TagEntry.isQuarantined = 32

/-- R26: DEFINE_SURFACE in every lifecycle state; defining has no effect on the class of any request. -/
def Obligations.DefineSurfaceStores : Prop :=
  ∀ (s : State) (i : Fin 8) (params : List Byte), s.Takes 0x10 params → s.device = .running → params.length = 66 →
    (byteAt params 0).toNat = i.val →
    ((s.surf i).life = .empty ∨ (s.surf i).life = .defined →
      exec (.defineSurface params) s = .next
        ((s.modSurf i (fun su => { su with life := .defined, desc := Descriptor.ofBlock params })).replied .ok []) ∧
      ∀ r, (s.modSurf i (fun su => { su with life := .defined, desc := Descriptor.ofBlock params })).fab.classify s.env r =
        s.fab.classify s.env r) ∧
    ((s.surf i).life = .attached ∨ (s.surf i).life = .detaching →
      exec (.defineSurface params) s = .next (s.replied .badState []))

/-- R27: READ_SURFACE, in every lifecycle state. -/
def Obligations.ReadSurfaceAnswers : Prop :=
  ∀ (s : State) (i : Fin 8) (p : Byte), s.Takes 0x11 [p] → s.device = .running → p.toNat = i.val →
    exec (.readSurface [p]) s = .next (s.replied .ok
      (match (s.surf i).life with
        | .empty => [0]
        | .defined => 1 :: (s.surf i).desc.block i
        | .attached => 2 :: (s.surf i).desc.block i
        | .detaching => 3 :: (s.surf i).desc.block i))

/-- R28, R29, R30: ATTACH of a DEFINED surface reports the first of the eight checks that does not pass. -/
def Obligations.AttachReportsCheck : Prop :=
  ∀ (s : State) (i : Fin 8) (p : Byte), s.Takes 0x12 [p] → s.device = .running → p.toNat = i.val →
    (s.surf i).life = .defined →
    (∀ n, 1 ≤ n → n ≤ 8 → ¬ s.fab.Passes i n → (∀ m, 1 ≤ m → m < n → s.fab.Passes i m) →
      exec (.attach [p]) s =
        .next (s.replied (if n ≤ 6 then .badValue else .conflict) [BitVec.ofNat 8 n])) ∧
    (s.fab.failedCheck i = none ↔ ∀ n, 1 ≤ n → n ≤ 8 → s.fab.Passes i n)

/-- R28, R29, R30, R31: ATTACH of a DEFINED surface that passes every check, in a part at rest without a copy job of that
surface. -/
def Obligations.AttachStarts : Prop :=
  ∀ (s : State) (i : Fin 8) (p : Byte), s.Takes 0x12 [p] → s.device = .running → p.toNat = i.val → s.AtRest →
    (∀ j ∈ s.fab.copy.queue, j.surface ≠ i) → (s.surf i).life = .defined →
    (∀ n, 1 ≤ n → n ≤ 8 → s.fab.Passes i n) →
    ∃ t, exec (.attach [p]) s = .next t ∧ t = (s.modSurf i (fun _ => t.surf i)).replied .ok [] ∧
      (t.surf i).life = .attached ∧ (t.surf i).desc = (s.surf i).desc ∧
      (t.surf i).bufs.length = (s.surf i).desc.count.toNat ∧
      (∀ b, b < (s.surf i).desc.count.toNat →
        (t.surf i).bufs[b]? = some (BufRec.fresh b ((s.surf i).desc.baseOf b))) ∧
      (t.surf i).present = [] ∧ (t.surf i).frameCounter = 0 ∧ (t.surf i).history = [] ∧ (t.surf i).holdWait = 0 ∧
      (t.surf i).lane = [] ∧ (t.surf i).slot = none ∧ (t.surf i).latch = none ∧ (t.surf i).deferred = [] ∧
      (t.surf i).scrollActive = (s.surf i).desc.scroll.toNat ∧
      (t.surf i).scrollPending = (s.surf i).desc.scroll.toNat ∧
      (t.surf i).topActive = (s.surf i).desc.visTop.toNat ∧ (t.surf i).topPending = (s.surf i).desc.visTop.toNat ∧
      (t.surf i).bottomActive = (s.surf i).desc.visBottom.toNat ∧
      (t.surf i).bottomPending = (s.surf i).desc.visBottom.toNat

/-- R32, R33, R16, R71, R109, R188: DETACH of an ATTACHED surface. Its unissued requests are answered ABORTED. It is DETACHING while
some buffer is not FREE or a merge is outstanding. Where the surface has no copy job and no source hold, it is DEFINED at once
exactly when no access of its buffers is in flight: the WAITING merges, those that have formed their write and the queued scanout
parts are dropped, and all other counts are 0. -/
def Obligations.DetachBegins : Prop :=
  ∀ (s : State) (i : Fin 8) (p : Byte), s.Takes 0x13 [p] → s.device = .running → p.toNat = i.val →
    (s.surf i).life = .attached →
    ∃ t, exec (.detach [p]) s = .next t ∧ t.link = s.link.responding .accepted [] ∧
      ((t.surf i).life = .detaching ∧
          ¬ ((∀ r ∈ (t.surf i).bufs, r.st = .free) ∧ ∀ m ∈ (t.surf i).merges, m.st = .writing) ∨
        (t.surf i).life = .defined ∧ (t.surf i).bufs = [] ∧ ∀ m ∈ (t.surf i).merges, m.st = .writing) ∧
      ((∀ j ∈ s.fab.copy.queue, j.surface ≠ i) → (s.surf i).deferred = [] → (∀ r ∈ (s.surf i).bufs, r.hold = false) →
        ((s.surf i).merges.map (fun m => m.id)).Nodup →
        ((t.surf i).life = .defined ↔
          (∀ b r, (s.surf i).bufs[b]? = some r → r.st = .free ∨
            r.prodWrites = 0 ∧ r.prodReads = 0 ∧ r.copyReads = 0 ∧ r.copyWrites = 0 ∧
              r.merges ≤ (s.surf i).merges.countP (fun m => decide (m.buf = b) &&
                (decide (m.st = .waiting) || decide (m.st = .reading) && m.formed.isSome)) ∧
              r.scanReads ≤ ((s.fab.scanQ.filter (fun e => decide (e.surface = i) && decide (e.target = some b))).map
                (fun e => e.parts.length)).sum) ∧
          ∀ m ∈ (s.surf i).merges, ¬ (m.st = .reading ∧ m.formed = none))) ∧
      (s.AtRest → t.fab.events = if (t.surf i).life = .defined then
          appendEvent s.fab.events
            { kind := .detached, surface := BitVec.ofNat 8 i.val, pipe := (s.surf i).desc.pipe, buffer := 0xFF, seq := 0,
              detail := 0, stamp := s.timebase }
        else s.fab.events) ∧
      (∀ q ∈ (s.surf i).lane, s.Aborted t q.id) ∧ (∀ e ∈ s.fab.scanQ, e.surface = i → s.Aborted t e.id) ∧
      (t.surf i).desc = (s.surf i).desc ∧
      (t.surf i).lane = [] ∧ (t.surf i).slot = none ∧ (t.surf i).present = [] ∧ (t.surf i).latch = none ∧
      (t.surf i).closePending = false ∧ (t.surf i).holdWait = 0 ∧
      (∀ r ∈ (t.surf i).bufs, r.st = .free ∨ r.st = .draining) ∧
      (∀ m ∈ (t.surf i).merges, m.st = .writing ∨ m.noWrite = true) ∧
      t.tags = s.tags ∧ t.issued = s.issued ∧ t.device = s.device ∧ t.timebase = s.timebase ∧ t.limit = s.limit ∧
      t.pipes = s.pipes ∧ t.tables = s.tables ∧ t.mask = s.mask ∧ t.cdo = s.cdo ∧ t.pending = s.pending

/-- R34: ERASE, and what READ_SURFACE and DEFINE_SURFACE then find: a surface as after hard reset. -/
def Obligations.EraseEmpties : Prop :=
  ∀ (s : State) (i : Fin 8) (p : Byte), s.device = .running → p.toNat = i.val →
    (s.Takes 0x14 [p] →
      ((s.surf i).life = .defined →
        exec (.erase [p]) s = .next ((s.modSurf i (fun _ => State.reset.surf i)).replied .ok [])) ∧
      ((s.surf i).life = .empty → exec (.erase [p]) s = .next (s.replied .ok [])) ∧
      ((s.surf i).life = .attached ∨ (s.surf i).life = .detaching →
        exec (.erase [p]) s = .next (s.replied .badState []))) ∧
    (s.surf i = State.reset.surf i →
      (s.Takes 0x11 [p] → exec (.readSurface [p]) s = .next (s.replied .ok [0])) ∧
      ∀ params, s.Takes 0x10 params → params.length = 66 → byteAt params 0 = p →
        exec (.defineSurface params) s = .next
          ((s.modSurf i (fun _ => { State.reset.surf i with
            life := .defined, desc := Descriptor.ofBlock params })).replied .ok []))

/-- R35, R36: SET_ORIENT and SET_WINDOW of an ATTACHED surface. -/
def Obligations.PlacementFieldsChange : Prop :=
  ∀ (s : State) (i : Fin 8) (params : List Byte), s.device = .running → (byteAt params 0).toNat = i.val →
    (s.surf i).life = .attached →
    (params.length = 2 → s.Takes 0x20 params →
      exec (.setOrient params) s = .next
        (if (byteAt params 1).toNat < 8 ∧ ((s.surf i).desc.mode = 1 →
            (s.surf i).desc.xe.toNat < (s.surf i).desc.lwOf (orientOf (byteAt params 1)) ∧
            (s.surf i).desc.ye.toNat < (s.surf i).desc.lhOf (orientOf (byteAt params 1))) then
          (s.modSurf i (fun su => { su with desc := { su.desc with orient := byteAt params 1 } })).replied .ok []
         else s.replied .badValue [])) ∧
    (params.length = 10 → s.Takes 0x21 params →
      exec (.setWindow params) s = .next
        (if (s.surf i).desc.mode ≠ 1 then s.replied .badState []
         else if (halfAt params 1).toNat ≤ (halfAt params 3).toNat ∧
            (halfAt params 3).toNat < (s.surf i).desc.lwOf (orientOf (s.surf i).desc.orient) ∧
            (halfAt params 5).toNat ≤ (halfAt params 7).toNat ∧
            (halfAt params 7).toNat < (s.surf i).desc.lhOf (orientOf (s.surf i).desc.orient) ∧
            (byteAt params 9).toNat ≤ 1 then
          (s.modSurf i (fun su => { su with desc := { su.desc with
            xs := halfAt params 1, xe := halfAt params 3, ys := halfAt params 5, ye := halfAt params 7,
            order := byteAt params 9 } })).replied .ok []
         else s.replied .badValue []))

/-- R37: SET_SCROLL and SET_VISIBLE of an ATTACHED surface. -/
def Obligations.ScanoutFieldsChange : Prop :=
  ∀ (s : State) (i : Fin 8) (params : List Byte), s.device = .running → (byteAt params 0).toNat = i.val →
    (s.surf i).life = .attached →
    (params.length = 3 → s.Takes 0x22 params →
      exec (.setScroll params) s = .next
        (if (halfAt params 1).toNat < (s.surf i).desc.bandRows.toNat ∨
            (s.surf i).desc.bandRows = 0 ∧ halfAt params 1 = 0 then
          (s.modSurf i (fun su => { su with
            desc := { su.desc with scroll := halfAt params 1 },
            scrollPending := (halfAt params 1).toNat })).replied .ok []
         else s.replied .badValue [])) ∧
    (params.length = 5 → s.Takes 0x23 params →
      exec (.setVisible params) s = .next
        (if (halfAt params 1).toNat ≤ (halfAt params 3).toNat ∧ (halfAt params 3).toNat < (s.surf i).desc.h then
          (s.modSurf i (fun su => { su with
            desc := { su.desc with visTop := halfAt params 1, visBottom := halfAt params 3 },
            topPending := (halfAt params 1).toNat, bottomPending := (halfAt params 3).toNat })).replied .ok []
         else s.replied .badValue []))

/-- R38, R92, R93: SET_POLICY of an ATTACHED surface, in a part at rest. The six policy fields change together, and a change of
carry-forward empties the history. Under RECLAIM a head that waits for a buffer is decided again: the oldest READY buffer whose source
hold is clear is taken with FRAME_DROPPED and opened for it, deciding carry-forward; with none the head goes on waiting. That
the engine takes up a job at once is the model's reading (logs 12 and 15). -/
def Obligations.SetPolicyChanges : Prop :=
  ∀ (s : State) (i : Fin 8) (params : List Byte), s.Takes 0x24 params → s.device = .running → params.length = 5 →
    (byteAt params 0).toNat = i.val → (s.surf i).life = .attached → s.AtRest →
    let su := s.surf i
    let inRange := (byteAt params 1).toNat ≤ 1 ∧ 1 ≤ (byteAt params 2).toNat ∧ (byteAt params 2).toNat ≤ 4 ∧
      (byteAt params 3).toNat < 8 ∧ (byteAt params 4).toNat ≤ 15
    let u : Surface := { su with
      desc := { su.desc with present := byteAt params 1, minShow := byteAt params 2, flags := byteAt params 3,
                             holdLimit := byteAt params 4 },
      history := if (byteAt params 3).getLsbD 2 = su.desc.flags.getLsbD 2 then su.history else [] }
    (¬ inRange → exec (.setPolicy params) s = .next (s.replied .badValue [])) ∧
    (inRange → (su.head = .waiting → (byteAt params 3).getLsbD 0 = false ∨
        BuffersSafe su ∧ su.lane ≠ [] ∧ ∀ k ∈ su.present, (su.buf k).hold = true) →
      exec (.setPolicy params) s = .next ((s.modSurf i (fun _ => u)).replied .ok [])) ∧
    ∀ pre b post x, inRange → su.head = .waiting → su.lane ≠ [] → su.closePending = false → BuffersSafe su → ListsSafe su →
      (byteAt params 3).getLsbD 0 = true → su.present = pre ++ b :: post → (∀ k ∈ pre, (su.buf k).hold = true) →
      su.bufs[b]? = some x → x.hold = false →
      ∃ t, exec (.setPolicy params) s = .next t ∧ t.link = s.link.responding .ok [] ∧ t.HeadDecided i u true ∧
        t.Opened i b ∧ (t.surf i).present = pre ++ post ∧ (t.surf i).desc = u.desc ∧
        (s.modSurf i (fun _ => u)).CopyDecided t i b (appendEvent s.fab.events
          { kind := .frameDropped, surface := BitVec.ofNat 8 i.val, pipe := su.desc.pipe, buffer := BitVec.ofNat 8 b,
            seq := BitVec.ofNat 32 x.content, detail := 0, stamp := s.timebase }) ∧
        t.tags = s.tags ∧ t.issued = s.issued

/-- R102, R95: CLOSE without a FILLING buffer, and CLOSE behind a bound head. -/
def Obligations.CloseAnswered : Prop :=
  ∀ (s : State) (i : Fin 8) (p : Byte), s.Takes 0x30 [p] → s.device = .running → p.toNat = i.val →
    (s.surf i).life = .attached →
    ((∀ r ∈ (s.surf i).bufs, r.st ≠ .filling) → exec (.close [p]) s = .next (s.replied .noFrame [])) ∧
    (s.AtRest → (∃ r ∈ (s.surf i).bufs, r.st = .filling) → (s.surf i).lane ≠ [] →
      (∃ bd, (s.surf i).head = .bound bd) →
      exec (.close [p]) s = .next ((s.modSurf i (fun su => { su with closePending := true })).replied .ok []))

/-- R53, R69, R95 to R100: CLOSE of a fill with an empty lane, or with a head that is mapped but not bound, applies at once
(State.Closed). A head that was mapped drops its mapping and asks for a buffer, the one just closed among them where RECLAIM may take
it; the buffer that it opens decides carry-forward (State.AfterClose). That the stripe of an outstanding merge of another buffer joins
the history entry is the model's reading of R53 (log 22), that the engine takes up a job at once too (logs 12 and 15), and that all this is
one step its choice (log 1). -/
def Obligations.CloseApplies : Prop :=
  ∀ (s : State) (i : Fin 8) (p : Byte) (b : Nat) (r : BufRec), s.Takes 0x30 [p] → s.device = .running →
    p.toNat = i.val → (s.surf i).life = .attached → s.AtRest → BuffersSafe (s.surf i) →
    ((s.surf i).lane = [] ∧ (s.surf i).head = .fresh ∨ (s.surf i).lane ≠ [] ∧ ∃ m, (s.surf i).head = .mapped m) →
    (s.surf i).closing = [] → (s.surf i).bufs[b]? = some r → r.st = .filling →
    ∃ t u events, exec (.close [p]) s = .next t ∧ t.link = s.link.responding .ok [] ∧
      s.Closed i b r u events ∧ s.AfterClose t i u events ∧ t.tags = s.tags ∧ t.issued = s.issued

/-- R103, R16, R71, R87, R105, R106, R148: DISCARD FILLING. A head that has issued a part has the rest of them dropped and leaves the
lane; every other request stays. The buffer's WAITING merges and those that have formed their write are dropped, the others READING
end without a write; its copy job is cancelled, whose source is released from its hold; and it leaves use with content NONE, FREE
exactly when no count and no hold is left. The next head asks for a buffer (R89), which may be the discarded one. -/
def Obligations.DiscardFillingAbandons : Prop :=
  ∀ (s : State) (i : Fin 8) (p : Byte) (b : Nat) (r : BufRec), s.Takes 0x31 [p, 0] → s.device = .running →
    p.toNat = i.val → (s.surf i).life = .attached → s.AtRest → BuffersSafe (s.surf i) → ListsSafe (s.surf i) →
    (s.surf i).bufs[b]? = some r → r.st = .filling →
    let su := s.surf i
    let drops := fun m : Merge => decide (m.buf = b) &&
      (decide (m.st = .waiting) || decide (m.st = .reading) && m.formed.isSome)
    let merge := fun m : Merge => if drops m then none
      else if m.buf = b ∧ m.st = .reading then some { m with noWrite := true } else some m
    let unstamped := fun m : Merge => { m with presented := none }
    let ofJob := fun c : CopyJob => decide (c.surface = i) && decide (c.target = b)
    let name := fun c : CopyJob => (c.surface, c.source, c.target)
    let isSource := fun n : Nat => ∃ j, s.fab.jobOf i b = some j ∧ j.source = n
    -- the requests that stay, and the buffers as the discard leaves them
    let left := match su.head with
      | .bound bd => if bd.issued then su.lane.tail else su.lane
      | _ => su.lane
    ∃ (t : State) (u : Surface), exec (.discardFilling [p, 0]) s = .next t ∧ t.link = s.link.responding .ok [] ∧
      u = { su with bufs := u.bufs, lane := left } ∧ u.bufs.length = su.bufs.length ∧
      (∀ n x, su.bufs[n]? = some x → ∃ h : Bool, (h = true ↔ x.hold = true ∧ ¬ isSource n) ∧
        u.bufs[n]? = some (if n = b then
            let y := { x with content := 0, merges := x.merges - su.merges.countP drops, hold := h }
            { y with st := if y.countsZero = true ∧ h = false then .free else .draining }
          else ({ x with hold := h } : BufRec).tested)) ∧
      -- the lane
      (∀ bd q qs, su.head = .bound bd → bd.issued = true → su.lane = q :: qs → (∀ x ∈ qs, x.id ≠ q.id) →
        s.Aborted t q.id) ∧
      (left = [] → (t.surf i).lane = [] ∧ (t.surf i).head = .fresh ∧ (t.surf i).slot = none ∧ (t.surf i).latch = none ∧
        (t.surf i).history = su.history ∧
        (∀ (n : Nat) (x : BufRec), u.bufs[n]? = some x → x.st ≠ .closing → (t.surf i).bufs[n]? = some x) ∧
        ((su.merges.map (fun m => m.id)).Nodup →
          (t.surf i).merges.map unstamped = (su.merges.filterMap merge).map unstamped) ∧
        t.fab.copy.queue.map name = (s.fab.copy.queue.filter (fun c => !ofJob c) ++
          (if s.fab.copy.queue.any ofJob then (su.deferred.filter (fun c => !ofJob c)).take 1 else [])).map name) ∧
      -- no CLOSING buffer could be READY already
      ((∀ c cs, su.closing = c :: cs → ∃ y, su.bufs[c]? = some y ∧
          ¬ (y.prodWrites = 0 ∧ y.merges = 0 ∧ y.copyWrites = 0 ∧ s.fab.jobOf i c = none)) →
        (left = [] → (t.surf i).present = su.present ∧ t.fab.events = s.fab.events) ∧
        (left ≠ [] → t.HeadDecided i u true)) ∧
      -- the discarded buffer, where it is not opened again
      ((t.surf i).filling ≠ some b →
        (t.surf i).bufs[b]? = u.bufs[b]? ∧ (∀ m ∈ (t.surf i).merges, m.buf = b → m.st = .writing ∨ m.noWrite = true) ∧
          t.fab.jobOf i b = none ∧
          (s.fab.jobOf i b ≠ none →
            ∀ c ∈ t.fab.copy.slots, c.surface = i → c.target = b →
              ∃ c' ∈ s.fab.copy.slots, c = { c' with orphan := true } ∧
                (c'.orphan = true ∨ c'.phase = .reading ∨ c'.phase = .writing))) ∧
      (t.surf i).closePending = false ∧ (t.surf i).frameCounter = su.frameCounter ∧
      t.tags = s.tags ∧ t.issued = s.issued

/-- R103, R104, R105, R93: a choice byte above 1, whichever row carries it, is BAD_VALUE; DISCARD READY with an empty lane, and under a head that waits for a buffer, which is served at once, after the
whole of the command (log 11), where a discarded buffer goes FREE; and NOFRAME for either choice. -/
def Obligations.DiscardReadyEmpties : Prop :=
  ∀ (s : State) (i : Fin 8) (p : Byte), s.device = .running → p.toNat = i.val → (s.surf i).life = .attached →
    (s.Takes 0x31 [p, 1] → (s.surf i).present = [] →
      exec (.discardReady [p, 1]) s = .next (s.replied .noFrame [])) ∧
    (s.Takes 0x31 [p, 0] → (∀ r ∈ (s.surf i).bufs, r.st ≠ .filling) →
      exec (.discardFilling [p, 0]) s = .next (s.replied .noFrame [])) ∧
    (∀ choice : Byte, s.Takes 0x31 [p, choice] → 1 < choice.toNat →
      exec (.discardFilling [p, choice]) s = .next (s.replied .badValue []) ∧
        exec (.discardReady [p, choice]) s = .next (s.replied .badValue [])) ∧
    (s.Takes 0x31 [p, 1] → s.AtRest → ListsSafe (s.surf i) → (s.surf i).lane = [] → (s.surf i).present ≠ [] →
      ∃ t, exec (.discardReady [p, 1]) s = .next t ∧
        t = (s.modSurf i (fun su => { su with bufs := (t.surf i).bufs, present := [] })).replied .ok
              [BitVec.ofNat 8 (s.surf i).present.length] ∧
        ∀ b r, (s.surf i).bufs[b]? = some r →
          (t.surf i).bufs[b]? = some
            (if b ∈ (s.surf i).present then
              { r with st := if r.countsZero = true ∧ r.hold = false then .free else .draining }
             else r)) ∧
    (s.Takes 0x31 [p, 1] → s.AtRest → BuffersSafe (s.surf i) → ListsSafe (s.surf i) → (s.surf i).lane ≠ [] →
      (s.surf i).head = .waiting → (s.surf i).closePending = false → (s.surf i).present ≠ [] →
      let u : Surface := { s.surf i with
        bufs := (s.surf i).bufs.mapIdx (fun k x => if k ∈ (s.surf i).present then { x with st := x.unused } else x)
        present := [] }
      ∃ t, exec (.discardReady [p, 1]) s = .next t ∧
        t.link = s.link.responding .ok [BitVec.ofNat 8 (s.surf i).present.length] ∧ (t.surf i).present = [] ∧
        t.HeadDecided i u false ∧
        ((s.surf i).desc.flags.getLsbD 2 = false → (t.surf i).history = (s.surf i).history ∧ t.fab.events = s.fab.events) ∧
        t.tags = s.tags ∧ t.issued = s.issued)

/-- R113: BIND_PIPE. -/
def Obligations.BindPipeWrites : Prop :=
  ∀ (s : State) (a b c : Byte), s.Takes 0x40 [a, b, c] → s.device = .running → s.AtRest →
    (3 < a.toNat ∨ 63 < b.toNat ∨ 1 < c.toNat → exec (.bindPipe [a, b, c]) s = .next (s.replied .badValue [])) ∧
    ∀ p : Fin 4, a.toNat = p.val → b.toNat ≤ 63 → c.toNat ≤ 1 →
      exec (.bindPipe [a, b, c]) s = .next
        ({ s with pipes := s.pipes.set p.val { source := b.setWidth 6, enabled := decide (c.toNat = 1),
                                               counter := (s.pipes.get p).counter } p.isLt }.replied .ok
          (wordBytes (s.pipes.get p).counter))

/-- R61, R62: LOAD_EXPAND and LOAD_PALETTE with a length that fits. -/
def Obligations.TablesLoaded : Prop :=
  ∀ (s : State) (first count : Byte), s.device = .running →
    (∀ (channel : Byte) (vals : List Byte), vals.length = count.toNat → 1 ≤ count.toNat → count.toNat ≤ 64 →
      s.Takes 0x50 (channel :: first :: count :: vals) →
      ∃ t, exec (.loadExpand (channel :: first :: count :: vals)) s = .next t ∧
        if channel.toNat ≤ 2 ∧ first.toNat + count.toNat ≤ (if channel = 1 then 64 else 32) then
          t = { s with tables := t.tables }.replied .ok [] ∧
            t.tables.palA = s.tables.palA ∧ t.tables.palB = s.tables.palB ∧
            (∀ k : Fin 32, t.tables.red.get k =
              if channel = 0 ∧ first.toNat ≤ k.val ∧ k.val < first.toNat + count.toNat then
                byteAt vals (k.val - first.toNat) else s.tables.red.get k) ∧
            (∀ k : Fin 64, t.tables.green.get k =
              if channel = 1 ∧ first.toNat ≤ k.val ∧ k.val < first.toNat + count.toNat then
                byteAt vals (k.val - first.toNat) else s.tables.green.get k) ∧
            (∀ k : Fin 32, t.tables.blue.get k =
              if channel = 2 ∧ first.toNat ≤ k.val ∧ k.val < first.toNat + count.toNat then
                byteAt vals (k.val - first.toNat) else s.tables.blue.get k)
        else t = s.replied .badValue []) ∧
    (∀ (palette : Byte) (vals : List Byte), vals.length = 3 * count.toNat → 1 ≤ count.toNat → count.toNat ≤ 24 →
      s.Takes 0x51 (palette :: first :: count :: vals) →
      ∃ t, exec (.loadPalette (palette :: first :: count :: vals)) s = .next t ∧
        if palette.toNat ≤ 1 ∧ first.toNat + count.toNat ≤ 256 then
          t = { s with tables := t.tables }.replied .ok [] ∧
            t.tables.red = s.tables.red ∧ t.tables.green = s.tables.green ∧ t.tables.blue = s.tables.blue ∧
            (∀ k : Fin 256, t.tables.palA.get k =
              if palette = 0 ∧ first.toNat ≤ k.val ∧ k.val < first.toNat + count.toNat then
                { blue := byteAt vals (3 * (k.val - first.toNat)), green := byteAt vals (3 * (k.val - first.toNat) + 1),
                  red := byteAt vals (3 * (k.val - first.toNat) + 2) } else s.tables.palA.get k) ∧
            (∀ k : Fin 256, t.tables.palB.get k =
              if palette = 1 ∧ first.toNat ≤ k.val ∧ k.val < first.toNat + count.toNat then
                { blue := byteAt vals (3 * (k.val - first.toNat)), green := byteAt vals (3 * (k.val - first.toNat) + 1),
                  red := byteAt vals (3 * (k.val - first.toNat) + 2) } else s.tables.palB.get k)
        else t = s.replied .badValue [])

/-- R164, R161, R162: SET_TIMEOUT answers the previous limit; exactly the ISSUED tags that the new limit finds expired become
QUARANTINED, each completed as TAG_TIMEOUT completes it (TagExpires), in increasing tag number. -/
def Obligations.SetTimeoutApplies : Prop :=
  ∀ (s : State) (v : Byte), s.Takes 0x60 [v] → s.device = .running →
    ∃ u t, execAll ((List.finRange 32).map .tagTimeout) { s with limit := v } = .next u ∧
      exec (.setTimeout [v]) s = .next t ∧ t = u.replied .ok [s.limit] ∧
      t.link = s.link.responding .ok [s.limit] ∧ t.limit = v ∧
      (∀ k, t.tag k =
        if (s.tag k).st = .issued ∧ v ≠ 0 ∧ v.toNat * 64 ≤ (s.timebase - (s.tag k).issueTime).toNat then
          { s.tag k with st := .quarantined, upRef := none } else s.tag k) ∧
      t.issued = s.issued ∧ t.device = s.device ∧ t.timebase = s.timebase ∧ t.pipes = s.pipes ∧
      t.tables = s.tables ∧ t.mask = s.mask ∧ t.cdo = s.cdo ∧ t.pending = s.pending

/-- R191, R188: READ_EVENTS, and the 14 bytes of a record with its kind code. -/
def Obligations.ReadEventsRemoves : Prop :=
  (∀ (s : State) (n : Byte), s.Takes 0x70 [n] → s.device = .running →
    exec (.readEvents [n]) s = .next
      (if 1 ≤ n.toNat ∧ n.toNat ≤ 8 then
        { s with fab := { s.fab with events := s.fab.events.drop n.toNat } }.replied .ok
          ((s.fab.events.take n.toNat).flatMap EventRecord.bytes)
       else s.replied .badValue [])) ∧
  ∀ r : EventRecord,
    r.bytes.length = 14 ∧
      byteAt r.bytes 0 = (match r.kind with
        | .frameReady => 0x00 | .flip => 0x01 | .frameSkipped => 0x02 | .frameDropped => 0x03 | .holdExpired => 0x04
        | .carryLost => 0x05 | .writeFault => 0x06 | .readFault => 0x07 | .copyFault => 0x08 | .tagTimeout => 0x09
        | .lateResponse => 0x0A | .detached => 0x0B | .resetDone => 0x0C | .overflow => 0x0D) ∧
      byteAt r.bytes 1 = r.surface ∧ byteAt r.bytes 2 = r.pipe ∧ byteAt r.bytes 3 = r.buffer ∧
      (∀ j, j < 4 → byteAt r.bytes (4 + j) = r.seq.extractLsb' (8 * j) 8) ∧
      (∀ j, j < 2 → byteAt r.bytes (8 + j) = r.detail.extractLsb' (8 * j) 8) ∧
      ∀ j, j < 4 → byteAt r.bytes (10 + j) = r.stamp.extractLsb' (8 * j) 8

/-- R192: SET_ATTENTION. -/
def Obligations.SetAttentionReplaces : Prop :=
  ∀ (s : State) (lo hi : Byte), s.Takes 0x71 [lo, hi] → s.device = .running →
    exec (.setAttention [lo, hi]) s = .next
      (if hi.getLsbD 6 = true ∨ hi.getLsbD 7 = true then s.replied .badValue []
       else { s with mask := hi ++ lo }.replied .ok [s.mask.extractLsb' 0 8, s.mask.extractLsb' 8 8])

/-- R169, R171, R172: a byte clocked in that begins a message, a byte stored, and a length byte above 80, by either row. Before the
link has its footing, and in PAUSED, nothing is sampled. -/
def Obligations.BytesTaken : Prop :=
  ∀ (s : State) (b : Byte), s.link.bitCount = 0 →
    (s.link.state = .idle → s.link.waitHigh = false →
      exec (.messageByteTaken b) s = .next
        { s with link := { s.link with state := .receiving, asm := [b], bitCount := 0, shift := 0, cselHigh := false } }) ∧
    (s.link.state = .receiving → s.link.asm ≠ [] →
      (if s.link.asm.length = 1 then b.toNat ≤ 80 else s.link.asm.length + 1 < (byteAt s.link.asm 1).toNat + 3) →
      exec (.messageByteTaken b) s = .next
        { s with link := { s.link with asm := s.link.asm ++ [b], bitCount := 0, shift := 0, cselHigh := false } }) ∧
    (s.link.state = .receiving → s.link.asm.length = 1 → 80 < b.toNat →
      exec (.messageByteTaken b) s = .next (s.replied .badLength [])) ∧
    (s.link.state = .idle ∧ s.link.waitHigh = true ∨ s.link.state = .paused →
      exec (.messageByteTaken b) s = .next s) ∧
    (∀ code, s.link.takes [code] = true → 80 < b.toNat →
      exec (.lengthAbove80 code b) s = .next (s.replied .badLength []))

/-- R173: LINK_PAUSE, LINK_RESUME before the limit and LINK_HOLD_LIMIT at it; R169: LINK_RESUME in IDLE selects the part. That the
elapsed pause is a 32-bit difference is the model's reading (log 25); that LINK_RESUME at exactly 20 000 µs still resumes, and
beyond it finds the message abandoned, is the model's choice (log 18). -/
def Obligations.PausedMessage : Prop :=
  ∀ s : State,
    (s.link.state = .receiving → s.link.bitCount = 0 →
      exec .linkPause s = .next
        { s with link := { s.link with state := .paused, cselHigh := true, pauseStart := s.timebase } }) ∧
    (s.link.state = .paused → (s.timebase - s.link.pauseStart).toNat ≤ 20000 →
      exec .linkResume s = .next { s with link := { s.link with state := .receiving, cselHigh := false } }) ∧
    (s.link.state = .paused → 20000 < (s.timebase - s.link.pauseStart).toNat →
      exec .linkResume s = .next
        { s with link := { s.link with state := .idle, asm := [], bitCount := 0, shift := 0, cselHigh := false,
                                       response := [], respPos := 0, lastError := .holdLimit } }) ∧
    (s.link.state = .idle → exec .linkResume s = .next { s with link := { s.link with cselHigh := false } }) ∧
    (s.link.state = .paused → 20000 ≤ (s.timebase - s.link.pauseStart).toNat →
      exec .linkHoldLimit s = .next
        { s with link := { s.link with state := .idle, asm := [], bitCount := 0, shift := 0, cselHigh := true,
                                       response := [], respPos := 0, lastError := .holdLimit } }) ∧
    (s.link.state = .paused → (s.timebase - s.link.pauseStart).toNat < 20000 → exec .linkHoldLimit s = .next s)

/-- R169, R172, R174, R175: CSEL released in the middle of a byte, in IDLE between bytes, and before the last bit of a response; the
bits of a response clocked out, by bytes and to the last; and the level of CDO. Before the first bit of a response that level is a
free value (log 28). -/
def Obligations.LinkReleased : Prop :=
  ∀ s : State,
    (∀ bits : List Bool, bits ≠ [] → bits.length ≤ 7 → s.link.bitCount = 0 →
      (s.link.state = .receiving ∨ s.link.state = .idle ∧ s.link.waitHigh = false →
        exec (.breakLink bits) s = .next
          { s with link := { s.link with state := .idle, asm := [], bitCount := 0, shift := 0, cselHigh := true,
                                         response := [], respPos := 0, lastError := .brk } }) ∧
      (s.link.state = .idle → s.link.waitHigh = true →
        exec (.breakLink bits) s = .next { s with link := { s.link with cselHigh := true, waitHigh := false } })) ∧
    (s.link.state = .idle → s.link.bitCount = 0 →
      exec .cselReleasedIdle s = .next { s with link := { s.link with cselHigh := true, waitHigh := false } }) ∧
    (∀ bits, s.link.state = .responding → s.link.respPos + bits < 8 * s.link.response.length →
      exec (.cut bits) s = .next
        { s with link := { s.link with state := .idle, asm := [], bitCount := 0, shift := 0, cselHigh := true,
                                       response := [], respPos := 0, lastError := .cut },
                 cdo := s.cdo ++ [{ bytes := s.link.response, bits := s.link.respPos + bits }] }) ∧
    (∀ bits, s.link.state = .responding → s.link.respPos < 8 * s.link.response.length →
      8 * s.link.response.length ≤ s.link.respPos + bits →
      exec (.cut bits) s = .next
        { s with link := { s.link with state := .idle, asm := [], bitCount := 0, shift := 0, cselHigh := true,
                                       waitHigh := false, response := [], respPos := 0 },
                 cdo := s.cdo ++ [{ bytes := s.link.response, bits := 8 * s.link.response.length }] }) ∧
    (∀ b, s.link.state = .responding → s.link.respPos + 8 < 8 * s.link.response.length →
      exec (.messageByteTaken b) s = .next { s with link := { s.link with respPos := s.link.respPos + 8 } }) ∧
    (s.link.state = .responding → s.link.respPos < 8 * s.link.response.length →
      exec .responseClockedOut s = .next
        { s with link := { s.link with state := .idle, asm := [], bitCount := 0, shift := 0, cselHigh := false,
                                       response := [], respPos := 0 },
                 cdo := s.cdo ++ [{ bytes := s.link.response, bits := 8 * s.link.response.length }] }) ∧
    (s.link.cselHigh = true → s.cdoLevel = none) ∧
    (s.link.cselHigh = false → s.link.state ≠ .responding → s.cdoLevel = some true) ∧
    (∀ n, s.link.cselHigh = false → s.link.state = .responding → s.link.respPos = n + 1 →
      s.cdoLevel = some ((byteAt s.link.response (n / 8)).getMsbD (n % 8)))

/-! ## Upstream requests -/

/-- R6, R7, R10, R17: a pass-through request joins its queue with its one or two parts, or waits on the link when the queue is
full or the device is RESETTING. That no further command accepts it is the model's choice (logs 1 and 5), and so are the zeros of a
READ's data area (log 26). -/
def Obligations.PassThroughAccepted : Prop :=
  ∀ (s : State) (r : UpRequest), s.AtRest → s.fab.classify s.env r = .passThrough →
    exec (.upstreamRequest r) s = .next
      (if s.device = .running ∧ s.fab.passQ.length < 16 then
        { s with fab := { s.fab with
          passQ := s.fab.passQ ++ [{ id := s.fab.nextId, req := r, started := false, parts :=
            if r.addr.toNat % 4096 + r.len ≤ 4096 then [{ addr := r.addr.toNat, len := r.len, pos := 0 }]
            else [{ addr := r.addr.toNat, len := 4096 - r.addr.toNat % 4096, pos := 0 },
                    { addr := r.addr.toNat + (4096 - r.addr.toNat % 4096),
                      len := r.len - (4096 - r.addr.toNat % 4096), pos := 4096 - r.addr.toNat % 4096 }] }],
          records := s.fab.records ++ [{
            id := s.fab.nextId, tag := r.tag, kind := r.kind, issued := 0, mark := false,
            worst := .okay, data := if r.kind = .read then List.replicate r.len 0 else [] }],
          nextId := s.fab.nextId + 1 } }
       else { s with fab := { s.fab with offered := [r] } })

/-- R2, R7, R8, R12: the class of every request by its span, kind and source, and the requests answered at acceptance, REFUSED or
RETRY, which change nothing else. -/
def Obligations.AnsweredAtAcceptance : Prop :=
  ∀ (s : State) (r : UpRequest), s.AtRest → s.device = .running → r.wellFormed = true →
    let answered := fun code : UpCode => exec (.upstreamRequest r) s = .next
      { s with fab := { s.fab with sent := s.fab.sent ++ [{ tag := r.tag, code := code, data := [] }] } }
    let scanSource := fun i : Fin 8 => (s.pipes.get (s.surf i).desc.pipeIndex).source
    (r.len = 0 ∨ 256 < r.len ∨ 2 ^ 40 < r.addr.toNat + r.len → answered .refused) ∧
    (1 ≤ r.len → r.len ≤ 256 → r.addr.toNat + r.len ≤ 2 ^ 40 →
      -- R7
      ((∀ i, ¬ s.fab.Meets r i) → s.fab.classify s.env r = .passThrough) ∧
      (∀ i, s.fab.Within r i → r.source = scanSource i → r.kind = .read → s.fab.classify s.env r = .scanout i) ∧
      (∀ i, s.fab.Within r i → r.source ≠ scanSource i → s.fab.classify s.env r = .producer i) ∧
      -- R8: partly inside a live aperture, two live apertures, a WRITE from the scanout source, a broken rule
      (∀ i, s.fab.Meets r i → ¬ ((s.surf i).desc.apBase.toNat ≤ r.addr.toNat ∧
          r.addr.toNat + r.len ≤ (s.surf i).desc.apBase.toNat + (s.surf i).desc.apSize) → answered .refused) ∧
      (∀ i k, i ≠ k → s.fab.Meets r i → s.fab.Meets r k → answered .refused) ∧
      (∀ i, s.fab.Within r i → r.source = scanSource i → r.kind = .write → answered .refused) ∧
      (∀ i, s.fab.Within r i → r.source ≠ scanSource i → s.fab.Breaks r i → answered .refused) ∧
      -- R12: a full lane
      (∀ i, s.fab.Within r i → r.source ≠ scanSource i → ¬ s.fab.Breaks r i → 8 ≤ (s.surf i).lane.length →
        answered .retry))

/-- R12, R13, R14, R17, R46, R65, R66, R72, R79, R89, R145: a producer request joins a lane that holds 1 to 7 requests. One that joins an
empty lane while a buffer is FILLING is mapped into that buffer. It waits, mapped, for stripes of the buffer's copy job that it touches and
for an outstanding merge. Otherwise the converter handles a DIRECT head's pixels at once, and a head that has no parts then, DIRECT or
STREAM, leaves the lane answered OKAY; a STREAM head with parts waits, mapped, for its first grant. The zeros of a READ's data area are
the model's choice (log 26). -/
def Obligations.ProducerJoinsLane : Prop :=
  ∀ (s : State) (r : UpRequest) (i : Fin 8), s.AtRest → s.device = .running →
    s.fab.classify s.env r = .producer i → (s.surf i).refusesProducer r = false →
    let su := s.surf i
    let q : LaneReq := { id := s.fab.nextId, req := r }
    let accepted := fun v : Surface =>
      ({ s with fab := { s.fab.modSurf i (fun _ => v) with
          records := s.fab.records ++ [{
            id := s.fab.nextId, tag := r.tag, kind := r.kind, issued := 0, mark := false,
            worst := .okay, data := if r.kind = .read then List.replicate r.len 0 else [] }],
          nextId := s.fab.nextId + 1 } } : State)
    let answered := fun v : Surface =>
      ({ s with fab := { s.fab.modSurf i (fun _ => v) with
          sent := s.fab.sent ++ [{ tag := r.tag, code := .okay, data := [] }], nextId := s.fab.nextId + 1 } } : State)
    (su.lane ≠ [] → su.lane.length < 8 →
      exec (.upstreamRequest r) s = .next (accepted { su with lane := su.lane ++ [q] })) ∧
    ∀ (b : Nat) (x : BufRec), su.lane = [] → su.head = .fresh → su.closePending = false → BuffersSafe su →
      su.bufs[b]? = some x → x.st = .filling → (∀ y ∈ s.fab.records, y.id ≠ s.fab.nextId) →
      let m := su.mapHead b r
      let waits := su.mergeOutstanding = true ∨
        ∃ j k, s.fab.jobOf i b = some j ∧ k ∈ m.stripes ∧ (j.stateOf k = some .pending ∨ j.stateOf k = some .copying)
      let mapped := accepted { su with lane := [q], head := .mapped m }
      (waits → exec (.upstreamRequest r) s = .next mapped) ∧
      (∀ ps, ¬ waits → m.plan = .direct ps →
        let h := match r.kind with
          | .write => handleWrite b su.slot [] ps
          | .read => handleRead b su.slot [] ps
        (∀ run, h.part = some run → exec (.upstreamRequest r) s = .next (accepted { su with
          lane := [q], slot := h.slot, head := .bound { buf := b, issued := false, todo := h.todo, parts := [run] } })) ∧
        (r.kind = .write → h.part = none → h.spilled = none → h.todo = [] →
          exec (.upstreamRequest r) s = .next (answered { su with slot := h.slot }))) ∧
      (∀ plan, ¬ waits → r.kind = .write → m.plan = .stream plan →
        (plan.runs ≠ [] → exec (.upstreamRequest r) s = .next mapped) ∧
        (plan.runs = [] → exec (.upstreamRequest r) s = .next (answered { su with
          slot := plan.slotAfter
          latch := su.latch.map (fun l => { l with
            stream := l.stream.map (fun y => { y with cx := plan.cx, cy := plan.cy }) }) })))

/-- R89 to R93, R133 to R136: the first request of an empty lane without a FILLING buffer. Where a buffer is FREE it opens the one
that R90 prefers; carry-forward decides its copy set, source and job (State.CopyDecided), and a DIRECT head that touches a stripe of
the set waits, mapped. Without carry-forward the converter handles a DIRECT head's pixels at once (R65, R66, R72). A STREAM head with
parts is mapped against the new fill latch (R74, R79). With none FREE it
takes the oldest READY buffer whose source hold is clear, under RECLAIM, with FRAME_DROPPED (R92, R108), deciding the same, and
otherwise it waits (R93). The zeros of a READ's data area are the model's choice (log 26), and that the engine selects and
starts chunks at once is its reading (logs 12 and 15), with its choice of stripe in the one case that R139 leaves open (log 30). -/
def Obligations.FirstRequestOpens : Prop :=
  ∀ (s : State) (r : UpRequest) (i : Fin 8), s.AtRest → s.device = .running →
    s.fab.classify s.env r = .producer i → (s.surf i).refusesProducer r = false → (s.surf i).lane = [] →
    (s.surf i).head = .fresh → (s.surf i).closePending = false → (∀ x ∈ (s.surf i).bufs, x.st ≠ .filling) →
    -- a FREE buffer
    (∀ b, (s.surf i).FirstChoice b →
      let ps := directPixels (s.surf i).desc (s.surf i).desc.newLatch ((s.surf i).buf b).base.toNat r
      let touched := directStripes r.kind ps
      ∃ t x, exec (.upstreamRequest r) s = .next t ∧ (t.surf i).bufs[b]? = some x ∧ x.st = .filling ∧ x.content = 0 ∧
        x.written = [] ∧ x.touched = false ∧ x.damaged = false ∧ (t.surf i).filling = some b ∧
        (t.surf i).frameCounter = (s.surf i).frameCounter ∧ t.tags = s.tags ∧ t.issued = s.issued ∧
        s.SameElsewhere t ∧ s.CopyDecided t i b s.fab.events ∧
        ((s.surf i).desc.mode ≠ 1 → s.fab.jobOf i b = none →
          (∃ (k : Nat) (y : BufRec), (s.surf i).bufs[k]? = some y ∧ y.content = (s.surf i).frameCounter) →
          (∃ k ∈ touched, (s.surf i).Copies b k) →
          (t.surf i).head = .mapped { buf := b, stripes := touched, plan := .direct ps } ∧
            (t.surf i).slot = (s.surf i).slot ∧ (t.surf i).lane = [{ id := s.fab.nextId, req := r }]) ∧
        ((s.surf i).desc.mode ≠ 1 → (s.surf i).desc.flags.getLsbD 2 = false → s.fab.jobOf i b = none →
          (s.surf i).mergeOutstanding = false →
          let h := match r.kind with
            | .write => handleWrite b (s.surf i).slot [] ps
            | .read => handleRead b (s.surf i).slot [] ps
          ∀ run, h.part = some run →
            (t.surf i).head = .bound { buf := b, issued := false, todo := h.todo, parts := [run] } ∧
              (t.surf i).slot = h.slot ∧ (t.surf i).lane = [{ id := s.fab.nextId, req := r }]) ∧
        (∀ plan, ({ s.surf i with latch := some (s.surf i).desc.newLatch }.mapHead b r).plan = .stream plan → plan.runs ≠ [] →
          (t.surf i).head = .mapped ({ s.surf i with latch := some (s.surf i).desc.newLatch }.mapHead b r) ∧
            (t.surf i).slot = (s.surf i).slot ∧ (t.surf i).lane = [{ id := s.fab.nextId, req := r }])) ∧
    -- RECLAIM with none FREE
    (∀ pre post b x, ListsSafe (s.surf i) → (∀ y ∈ (s.surf i).bufs, y.st ≠ .free) → (s.surf i).desc.flags.getLsbD 0 = true →
      (s.surf i).present = pre ++ b :: post →
      (∀ k ∈ pre, ((s.surf i).buf k).hold = true) → (s.surf i).bufs[b]? = some x → x.hold = false →
      ∃ t y, exec (.upstreamRequest r) s = .next t ∧ (t.surf i).bufs[b]? = some y ∧ y.st = .filling ∧ y.content = 0 ∧
        (t.surf i).present = pre ++ post ∧ (t.surf i).filling = some b ∧
        s.CopyDecided t i b (appendEvent s.fab.events
          { kind := .frameDropped, surface := BitVec.ofNat 8 i.val, pipe := (s.surf i).desc.pipe,
            buffer := BitVec.ofNat 8 b, seq := BitVec.ofNat 32 x.content, detail := 0, stamp := s.timebase }) ∧
        t.tags = s.tags ∧ t.issued = s.issued ∧ s.SameElsewhere t) ∧
    -- none FREE and none to reclaim
    ((∀ y ∈ (s.surf i).bufs, y.st ≠ .free) →
      ((s.surf i).desc.flags.getLsbD 0 = false ∨ ∀ k ∈ (s.surf i).present, ((s.surf i).buf k).hold = true) →
      exec (.upstreamRequest r) s = .next
        { s with fab := { s.fab.modSurf i (fun su => { su with
            lane := [{ id := s.fab.nextId, req := r }], head := .waiting }) with
          records := s.fab.records ++ [{
            id := s.fab.nextId, tag := r.tag, kind := r.kind, issued := 0, mark := false,
            worst := .okay, data := if r.kind = .read then List.replicate r.len 0 else [] }],
          nextId := s.fab.nextId + 1 } })

/-- R11, R17, R125, R126, R127, R128: a scanout read. Each byte of its span is a blank byte, or a memory byte at its address in the
SHOWN buffer; the memory bytes stand in the parts in order, cut at each display row and each address that is a multiple of 4096. A
read that is blank throughout is answered OKAY at once when the queue is empty; one with memory bytes joins the queue, and its parts
are counted into the SHOWN buffer. The zeros of the data area are the model's choice (log 26). -/
def Obligations.ScanoutReadResolved : Prop :=
  (∀ (su : Surface) (o : Nat),
    (su.life ≠ .attached ∨ (∀ x ∈ su.bufs, x.st ≠ .shown) → su.scanByte o = none) ∧
    (∀ (b : Nat) (x : BufRec), BuffersSafe su → su.life = .attached → su.bufs[b]? = some x → x.st = .shown →
      let pitch := 64 * su.desc.pitch.toNat
      let sy := o / pitch
      let top := su.desc.bandTop.toNat
      let rows := su.desc.bandRows.toNat
      (sy < su.topActive ∨ su.bottomActive < sy → su.scanByte o = none) ∧
      (su.topActive ≤ sy → sy ≤ su.bottomActive →
        (rows = 0 ∨ sy < top ∨ top + rows ≤ sy → su.scanByte o = some (x.base.toNat + sy * pitch + o % pitch)) ∧
        (1 ≤ rows → top ≤ sy → sy < top + rows →
          su.scanByte o = some (x.base.toNat + (top + (sy - top + su.scrollActive) % rows) * pitch + o % pitch))))) ∧
  (∀ (su : Surface) (first len : Nat),
    let pitch := 64 * su.desc.pitch.toNat
    let parts := su.scanParts first len
    parts.flatMap (fun p => (List.range p.len).map (fun j => (p.pos + j, p.addr + j))) =
        (List.range len).filterMap (fun j => (su.scanByte (first + j)).map (fun a => (j, a))) ∧
      (∀ p ∈ parts, 1 ≤ p.len ∧ ∀ j, 1 ≤ j → j < p.len →
        (first + p.pos + j) / pitch = (first + p.pos) / pitch ∧ (p.addr + j) % 4096 ≠ 0) ∧
      (∀ n p q, parts[n]? = some p → parts[n + 1]? = some q →
        (first + p.pos) / pitch ≠ (first + q.pos) / pitch ∨ q.addr % 4096 = 0) ∧
      (su.scanData first len).length = len ∧
      ∀ j, j < len → su.scanByte (first + j) = none →
        byteAt (su.scanData first len) j = su.desc.blank.extractLsb' (8 * ((first + j) % pitch % 4)) 8) ∧
  ∀ (s : State) (r : UpRequest) (i : Fin 8), s.AtRest → s.device = .running →
    s.fab.classify s.env r = .scanout i → s.fab.scanQ.length < 8 →
    ((s.surf i).scanParts (r.addr.toNat - (s.surf i).desc.apStart) r.len = [] → s.fab.scanQ = [] →
      (∀ q ∈ s.fab.records, q.id ≠ s.fab.nextId) →
      exec (.upstreamRequest r) s = .next
        { s with fab := { s.fab with
          sent := s.fab.sent ++ [{
            tag := r.tag, code := .okay,
            data := (List.range' (r.addr.toNat - (s.surf i).desc.apStart) r.len).map
              (fun o => (s.surf i).desc.blankByte (o % (s.surf i).desc.pitchBytes)) }],
          nextId := s.fab.nextId + 1 } }) ∧
    (∀ b, (s.surf i).scanParts (r.addr.toNat - (s.surf i).desc.apStart) r.len ≠ [] →
      (s.surf i).scanTarget = some b →
      exec (.upstreamRequest r) s = .next
        { s with fab := { s.fab.modBuf i b (fun x => { x with scanReads := x.scanReads +
            ((s.surf i).scanParts (r.addr.toNat - (s.surf i).desc.apStart) r.len).length }) with
          scanQ := s.fab.scanQ ++ [{
            id := s.fab.nextId, source := r.source, surface := i, target := some b,
            parts := (s.surf i).scanParts (r.addr.toNat - (s.surf i).desc.apStart) r.len, started := false }],
          records := s.fab.records ++ [{
            id := s.fab.nextId, tag := r.tag, kind := r.kind, issued := 0, mark := false,
            worst := .okay, data := (s.surf i).scanData (r.addr.toNat - (s.surf i).desc.apStart) r.len }],
          nextId := s.fab.nextId + 1 } })

/-! ## Grants, responses and expiries -/

/-- R4, R51, R52, R86, R157, R158: a grant gives the FREE tag with the lowest number to the best claim, whose access leaves under it
with the fields that R4 gives its kind, and its owner learns of the issue at once (State.Issues); then the part does what follows at once
(State.finish, log 1), which is nothing where that leaves it at rest. A lane head whose last part that was leaves the lane with its
record marked, and the next request becomes head, of the same fill, unless a close is pending, a stream wrap's among them: that
applies then (State.Closed, State.AfterClose). A stripe set with stripes added holds those and the ones before. With no claim that may be granted nothing changes. One grant a
command is the model's choice (log 2), as the route of a tag is (log 9), and which chunk claims is its reading (log 12). -/
def Obligations.GrantIssues : Prop :=
  (∀ (s : State) (c : Claim), s.bestClaim = some c →
    ∃ t u k a, exec .grant s = .next t ∧ t = u.finish ∧ (u.AtRest → t = u) ∧ (s.tag k).st = .free ∧
      (∀ j, j < k → (s.tag j).st ≠ .free) ∧
      t.tag k = { st := .issued, kind := a.kind, upRef := a.upRef, surface := a.surface, buffer := a.buffer,
                  pipe := a.surface.map (fun i => (s.surf i).desc.pipe.toNat), stripe := a.stripe,
                  issueTime := s.timebase, route := a.route } ∧
      (∀ j, j ≠ k → t.tag j = s.tag j) ∧
      t.issued = s.issued ++ [{ source := a.source, kind := a.down, addr := BitVec.ofNat 40 a.addr, len := a.len,
                                tag := k, bytes := a.bytes }] ∧
      s.SameElsewhere t ∧
      s.Issues c a u.fab ∧
      -- the lane head's last part
      (s.AtRest → ∀ i q qs bd, c = .lane i → (u.surf i).life = .attached → (u.surf i).lane = q :: qs →
        (u.surf i).head = .bound bd → bd.parts = [] → bd.todo = [] → (∀ x ∈ qs, x.id ≠ q.id) →
        let v : Surface := { u.surf i with lane := qs, head := .fresh }
        (∀ p, u.fab.records.find? (fun x => x.id == q.id) = some p →
          t.fab.records.find? (fun x => x.id == q.id) = some { p with mark := true }) ∧
        (v.closePending = false → (qs = [] → t.surf i = v) ∧ (t.surf i).lane <:+ qs ∧
          ∀ b, v.filling = some b → t.fab.events = s.fab.events ∧ (t.surf i).filling = some b ∧
            match (t.surf i).head with
            | .fresh => (t.surf i).lane = []
            | .waiting => False
            | .mapped m => m.buf = b
            | .bound bd => bd.buf = b) ∧
        (v.closePending = true → BuffersSafe v → v.closing = [] → ∀ b r, v.bufs[b]? = some r → r.st = .filling →
          ∃ w events, (u.modSurf i (fun _ => v)).Closed i b r w events ∧
            (u.modSurf i (fun _ => v)).AfterClose t i w events))) ∧
  (∀ (ks : List Nat) (l : StripeSet) (x : Nat), x ∈ addStripes ks l ↔ x ∈ ks ∨ x ∈ l) ∧
  (∀ s : State, s.AtRest → s.bestClaim = none → exec .grant s = .next s)

/-- R157, R129: the five classes at the arbiter in order, and the reserve of four tags. -/
def Obligations.GrantOrder : Prop :=
  ∀ s : State,
    (s.freeTags ≠ 0 → s.fab.scanPart ≠ none → s.bestClaim = some .scanout) ∧
    (s.freeTags ≤ 4 → s.fab.scanPart = none → s.bestClaim = none) ∧
    (4 < s.freeTags → s.fab.scanPart = none →
      -- the merge claims: a claim not yet presented counts as presented now
      ((∃ k, (s.surf k).mergeClaim ≠ none) →
        ∃ i m, s.bestClaim = some (.merge i) ∧ (s.surf i).mergeClaim = some m ∧
          ∀ k q, (s.surf k).mergeClaim = some q →
            m.presented.getD s.fab.nextStamp ≤ q.presented.getD s.fab.nextStamp) ∧
      ((∀ k, (s.surf k).mergeClaim = none) →
        (s.fab.copyChunk ≠ none → s.copyIssued < 2 → s.bestClaim = some .copy) ∧
        (s.fab.copyChunk = none ∨ 2 ≤ s.copyIssued →
          (s.fab.intakeClaims ≠ [] →
            ∃ n c, s.bestClaim = some c ∧ (n, c) ∈ s.fab.intakeClaims ∧ ∀ x ∈ s.fab.intakeClaims, n ≤ x.1) ∧
          (s.fab.intakeClaims = [] →
            (s.fab.copyChunk ≠ none → s.copyIssued < 4 → s.bestClaim = some .copy) ∧
            (s.fab.copyChunk = none ∨ 4 ≤ s.copyIssued → s.bestClaim = none)))))

/-- R5, R17, R72, R86, R99, R106, R129, R159, R160, R165, R167: a response for an ISSUED tag frees it and leaves every other tag; one for a FREE
tag changes nothing. OKAY for a part of a producer or scanout request counts it out of its buffer; the data of a scanout read, and
the reverse-converted pixels of a producer READ that lie in its span, go into the record, whose last part answers. An ERROR makes the
part FAULT, with WRITE_FAULT and the damaged flag for a WRITE and READ_FAULT for a read. A DRAINING buffer whose last part ends goes
FREE (R106) and is opened at once for a head that waits (R93, log 11), and the one CLOSING buffer whose last WRITE ends goes READY (R99). The
last response of a DETACHING surface ends its drain (R33, R39), and the last one in RESETTING makes the device RUNNING (R186). That a
failed orphan chunk damages the buffer it was to write is the model's reading (log 22). The route is the model's own (log 9). -/
def Obligations.ResponseFreesTag : Prop :=
  ∀ (s : State) (k : Fin 32) (code : DownCode) (data : List Byte),
    ((s.tag k).st = .free → exec (.downstreamResponse k code data) s = .next s) ∧
    ((s.tag k).st = .issued →
      ∃ t, exec (.downstreamResponse k code data) s = .next t ∧ t.tag k = TagEntry.cleared ∧
        (∀ j, j ≠ k → t.tag j = s.tag j) ∧ t.issued = s.issued ∧ ({ s with device := t.device } : State).SameElsewhere t ∧
        (s.LastOfReset k → t.device = .running) ∧ (¬ s.LastOfReset k → t.device = s.device)) ∧
    (∀ i b r p, s.InFlight k i b r → (s.tag k).upRef = some p.id →
      s.fab.records.find? (fun q => q.id == p.id) = some p → 1 ≤ p.issued →
      -- a WRITE answered OKAY
      ((s.tag k).kind = .producerWrite → (s.tag k).route = .nowhere →
        ∃ t, exec (.downstreamResponse k .okay data) s = .next t ∧ s.PartEnds t k i b r p p.data) ∧
      -- a part of a scanout read answered OKAY
      (∀ pos, (s.tag k).kind = .scanoutRead → (s.tag k).route = .bytes pos data.length →
        ∃ t area, exec (.downstreamResponse k .okay data) s = .next t ∧ s.PartEnds t k i b r p area ∧
          area.length = p.data.length ∧
          ∀ j, j < p.data.length → byteAt area j =
            if pos ≤ j ∧ j < pos + data.length then byteAt data (j - pos) else byteAt p.data j) ∧
      -- a part of a producer READ answered OKAY: the stored pixels `xs`, of a span that begins at offset `first`
      (∀ (xs : List Nat) (first : Nat), (s.tag k).kind = .producerRead →
        (s.tag k).route = .pixels (xs.map .index) first → xs.Nodup → data.length = 4 * xs.length →
        (s.surf i).desc.fmt ≠ .f8 →
        let bpp := (s.surf i).desc.bpp
        ∃ t area, exec (.downstreamResponse k .okay data) s = .next t ∧ s.PartEnds t k i b r p area ∧
          area.length = p.data.length ∧
          ∀ j, j < p.data.length →
            (∀ n, xs[n]? = some ((first + j) / bpp) → byteAt area j =
              byteAt (reverse (s.surf i).desc ((data.drop (4 * n)).take 4)) ((first + j) % bpp)) ∧
            ((first + j) / bpp ∉ xs → byteAt area j = byteAt p.data j)) ∧
      -- a part answered ERROR
      ((s.tag k).kind = .producerWrite ∨ (s.tag k).kind = .producerRead ∨ (s.tag k).kind = .scanoutRead →
        ∃ t, exec (.downstreamResponse k .error data) s = .next t ∧
          s.PartFails t k i b r p (if (s.tag k).kind = .producerWrite then .writeFault else .readFault) .fault)) ∧
    -- an access of a DETACHING surface, and a pass-through part in RESETTING
    (∀ i b, s.Draining k i b →
      ∃ t, exec (.downstreamResponse k code data) s = .next t ∧
        s.DrainDecided t k i b (match code with | .okay => .okay | .error => .fault)) ∧
    (s.AtRest → s.device = .resetting → (s.tag k).st = .issued → (s.tag k).kind = .pass → (s.tag k).surface = none →
      ∃ t, exec (.downstreamResponse k code data) s = .next t ∧
        (s.LastOfReset k → t.fab.events = appendEvent s.fab.events s.resetDone) ∧
        (¬ s.LastOfReset k → t.fab.events = s.fab.events)) ∧
    -- a part that ends while the lane head waits for a buffer
    (∀ i b, s.AtRest → s.device = .running → (s.tag k).st = .issued → (s.tag k).surface = some i →
      (s.tag k).buffer = some b → (s.surf i).life = .attached → (s.surf i).lane ≠ [] → (s.surf i).head = .waiting →
      (s.surf i).closePending = false → BuffersSafe (s.surf i) → ListsSafe (s.surf i) →
      (s.tag k).kind = .producerWrite ∨ (s.tag k).kind = .producerRead ∨ (s.tag k).kind = .scanoutRead →
      ∃ t, exec (.downstreamResponse k .okay data) s = .next t ∧ t.HeadDecided i { s.surf i with
        bufs := (s.surf i).bufs.mapIdx (fun n x => (if n = b then x.counted (s.tag k).kind else x).tested) } false) ∧
    -- the last part of a DRAINING buffer, and the last WRITE of the one CLOSING buffer
    ∀ (i : Fin 8) (b : Nat) (r : BufRec), s.AtRest → s.device = .running → (s.tag k).st = .issued →
      (s.tag k).surface = some i → (s.tag k).buffer = some b → (s.surf i).life = .attached → (s.surf i).lane = [] →
      (s.surf i).bufs[b]? = some r →
      (r.st = .draining → (s.surf i).closing = [] → (s.tag k).kind = .scanoutRead →
        ∃ t r', exec (.downstreamResponse k .okay data) s = .next t ∧ (t.surf i).bufs[b]? = some r' ∧
          r'.scanReads = r.scanReads - 1 ∧ r'.content = r.content ∧ t.fab.events = s.fab.events ∧
          r'.st = if r.prodWrites = 0 ∧ r.prodReads = 0 ∧ r.merges = 0 ∧ r.scanReads ≤ 1 ∧ r.copyReads = 0 ∧
            r.copyWrites = 0 ∧ r.hold = false then .free else .draining) ∧
      (r.st = .closing → (s.surf i).closing = [b] → (s.tag k).kind = .producerWrite →
        ∃ t r', exec (.downstreamResponse k .okay data) s = .next t ∧ (t.surf i).bufs[b]? = some r' ∧
          r'.prodWrites = r.prodWrites - 1 ∧ r'.content = r.content ∧
          if r.prodWrites ≤ 1 ∧ r.merges = 0 ∧ r.copyWrites = 0 ∧ s.fab.jobOf i b = none then
            r'.st = .ready ∧ (t.surf i).present = (s.surf i).present ++ [b] ∧ (t.surf i).closing = [] ∧
              t.fab.events = appendEvent s.fab.events
                { kind := .frameReady, surface := BitVec.ofNat 8 i.val, pipe := (s.surf i).desc.pipe,
                  buffer := BitVec.ofNat 8 b, seq := BitVec.ofNat 32 r.content, detail := if r.damaged then 1 else 0,
                  stamp := s.timebase }
          else r'.st = .closing ∧ (t.surf i).present = (s.surf i).present ∧ (t.surf i).closing = [b] ∧
            t.fab.events = s.fab.events)

/-- R5, R17, R18, R160: a response for a part of a pass-through READ or WRITE. The record takes the result into its worst; the last part
answers with the worst result, and with data for a READ that is OKAY throughout; before that the record waits with one part fewer. No
event record is appended. -/
def Obligations.PassThroughAnswered : Prop :=
  ∀ (s : State) (k : Fin 32) (code : DownCode) (data : List Byte) (id : Nat) (r : RespRecord) (pos : Nat),
    s.AtRest → s.device = .running → (s.tag k).st = .issued → (s.tag k).kind = .pass → (s.tag k).surface = none →
    (s.tag k).upRef = some id →
    (r.kind = .read ∧ (s.tag k).route = .bytes pos data.length ∨ r.kind = .write ∧ (s.tag k).route = .nowhere) →
    s.fab.records.find? (fun q => q.id == id) = some r → 1 ≤ r.issued →
    let okay := code = .okay
    let worst := if okay then r.worst else .fault
    let area := if okay ∧ r.kind = .read then writeAt r.data pos data else r.data
    let left := fun (records : List RespRecord) (sent : List UpResponse) =>
      ({ s with fab := { s.fab with records := records, sent := sent } }.setTag k TagEntry.cleared)
    (r.issued = 1 ∧ r.mark = true →
      exec (.downstreamResponse k code data) s = .next
        (left (s.fab.records.filter (fun q => q.id != id)) (s.fab.sent ++
          [{ tag := r.tag,
             code := (match worst with | .okay => .okay | .aborted => .aborted | .timeout => .timeout | .fault => .fault),
             data := if worst = .okay ∧ r.kind = .read then area else [] }]))) ∧
    (¬ (r.issued = 1 ∧ r.mark = true) → (∀ q ∈ s.fab.records, q.id = id → q = r) →
      exec (.downstreamResponse k code data) s = .next
        (left (s.fab.records.map (fun q => if q.id = id then
          { r with issued := r.issued - 1, worst := worst, data := area } else q)) s.fab.sent))

/-- R68, R70, R160, R162, R165: the end of a merge read. Answered OKAY, the merge holds the stored pixel of its write: the read pixel
converted back, with the held bytes laid over it, and converted again. Answered ERROR or expired, the merge is gone, its buffer is
damaged and its merge count is one less, and WRITE_FAULT or TAG_TIMEOUT is appended. The end of a merge write ends the merge and
lowers the count, with WRITE_FAULT and the damaged flag where it is answered ERROR. -/
def Obligations.MergeReadEnds : Prop :=
  (∀ (s : State) (k : Fin 32) (i : Fin 8) (m : Merge) (ms : List Merge) (r : BufRec) (data : List Byte),
    s.InFlight k i m.buf r → (s.tag k).kind = .mergeRead → (s.tag k).route = .merge m.id →
    (s.surf i).merges = m :: ms → m.st = .reading → m.noWrite = false → m.formed = none → (∀ x ∈ ms, x.id ≠ m.id) →
    data.length = 4 →
    let record := fun kind : EventKind => appendEvent s.fab.events
      { kind := kind, surface := BitVec.ofNat 8 i.val, pipe := idByte (s.tag k).pipe, buffer := BitVec.ofNat 8 m.buf,
        seq := BitVec.ofNat 32 r.content, detail := BitVec.ofNat 16 k.val, stamp := s.timebase }
    (∃ t m', exec (.downstreamResponse k .okay data) s = .next t ∧ (t.surf i).merges = m' :: ms ∧
      m'.id = m.id ∧ m'.st = .reading ∧ m'.bytes = m.bytes ∧
      m'.formed = some (forward s.tables (s.surf i).desc
        ((overlay ((reverse (s.surf i).desc data).map some) m.bytes).filterMap id)) ∧
      t.fab.events = s.fab.events ∧ t.tag k = TagEntry.cleared ∧ t.issued = s.issued) ∧
    (∃ t, exec (.downstreamResponse k .error data) s = .next t ∧ (∀ x ∈ (t.surf i).merges, x.id ≠ m.id) ∧
      (t.surf i).bufs[m.buf]? = some { r with damaged := true, merges := r.merges - 1 } ∧
      t.fab.events = record .writeFault ∧ t.tag k = TagEntry.cleared ∧ t.issued = s.issued) ∧
    (s.Expired k →
      ∃ t, exec (.tagTimeout k) s = .next t ∧ (∀ x ∈ (t.surf i).merges, x.id ≠ m.id) ∧
        (t.surf i).bufs[m.buf]? = some { r with damaged := true, merges := r.merges - 1 } ∧
        t.fab.events = record .tagTimeout ∧ t.tag k = { s.tag k with st := .quarantined, upRef := none } ∧
        t.issued = s.issued)) ∧
  ∀ (s : State) (k : Fin 32) (i : Fin 8) (m : Merge) (r : BufRec) (code : DownCode) (data : List Byte),
    s.InFlight k i m.buf r → (s.tag k).kind = .mergeWrite → (s.tag k).route = .merge m.id →
    (s.surf i).merges.find? (fun x => x.id == m.id) = some m → m.st = .writing →
    ∃ t, exec (.downstreamResponse k code data) s = .next t ∧ (∀ x ∈ (t.surf i).merges, x.id ≠ m.id) ∧
      (t.surf i).bufs[m.buf]? = some { r with merges := r.merges - 1, damaged := r.damaged || decide (code = .error) } ∧
      t.fab.events = (match code with
        | .okay => s.fab.events
        | .error => appendEvent s.fab.events
          { kind := .writeFault, surface := BitVec.ofNat 8 i.val, pipe := idByte (s.tag k).pipe,
            buffer := BitVec.ofNat 8 m.buf, seq := BitVec.ofNat 32 r.content, detail := BitVec.ofNat 16 k.val,
            stamp := s.timebase }) ∧
      t.tag k = TagEntry.cleared ∧ t.issued = s.issued

/-- R99, R137 to R147, R152, R160, R162: the copy engine. A copy read answered OKAY leaves its chunk HOLDING with the data. A
chunk ends when its write ends, or its read answered ERROR or expired; its slot is then free. A failed one damages the target and, where
it is the first of its stripe, appends COPY_FAULT, after TAG_TIMEOUT for an expiry. The copy count of the access falls. The stripe is DONE
when that was its last chunk, and the job ends when all its stripes are: it leaves the copy queue, its source's hold is cleared, the
oldest DEFERRED job joins, and a CLOSING target becomes READY where nothing else of it is in flight. A lane head that waits is bound
when its last stripe is DONE. In the same step (log 12) the engine selects stripes and starts chunks while a slot is free: which
stripe (Fabric.Selects, at the moment that log 15 names; log 30 where R139 leaves the choice open), which chunk (Surface.chunkAt),
and where the next one starts. -/
def Obligations.CopyReadHeld : Prop :=
  (∀ (s : State) (k : Fin 32) (ch : Chunk) (r : BufRec) (data : List Byte),
    s.InFlight k ch.surface ch.source r → (s.tag k).kind = .copyRead → (s.tag k).route = .chunk ch.id →
    s.fab.copy.slots.find? (fun x => x.id == ch.id) = some ch → ch.orphan = false → data.length = ch.len →
    ∃ t ch' r', exec (.downstreamResponse k .okay data) s = .next t ∧
      t.fab.copy.slots.find? (fun x => x.id == ch.id) = some ch' ∧ ch'.phase = .holding ∧ ch'.data = data ∧
      ch'.srcAddr = ch.srcAddr ∧ ch'.tgtAddr = ch.tgtAddr ∧ ch'.len = ch.len ∧
      (t.surf ch.surface).bufs[ch.source]? = some r' ∧ r'.copyReads = r.copyReads - 1 ∧
      t.fab.events = s.fab.events ∧ t.tag k = TagEntry.cleared ∧ t.issued = s.issued) ∧
  -- the end of a chunk
  (∀ (s : State) (k : Fin 32) (ch : Chunk) (r q : BufRec) (j : CopyJob) (x : StripeRec) (rest : List Nat) (c : Instr)
    (res : Worst),
    s.AtRest → s.device = .running → (s.tag k).st = .issued → (s.tag k).surface = some ch.surface →
    (s.tag k).route = .chunk ch.id →
    ((s.tag k).kind = .copyWrite ∧ (s.tag k).buffer = some ch.target ∨
      (s.tag k).kind = .copyRead ∧ (s.tag k).buffer = some ch.source ∧ res ≠ .okay) →
    ((∃ data, c = .downstreamResponse k .okay data ∧ res = .okay) ∨
      (∃ data, c = .downstreamResponse k .error data ∧ res = .fault) ∨
      c = .tagTimeout k ∧ s.Expired k ∧ res = .timeout) →
    (s.surf ch.surface).life = .attached → (s.surf ch.surface).lane = [] →
    (s.surf ch.surface).bufs[ch.source]? = some r → (s.surf ch.surface).bufs[ch.target]? = some q → ch.source ≠ ch.target →
    ((s.surf ch.surface).closing = [] ∧ q.st ≠ .closing ∧ q.st ≠ .draining ∨
      q.st = .closing ∧ (s.surf ch.surface).closing = ch.target :: rest ∧
        ∀ y ys, rest = y :: ys → y ≠ ch.target ∧ s.fab.jobOf ch.surface y ≠ none) →
    s.fab.copy.slots.find? (fun y => y.id == ch.id) = some ch → ch.orphan = false →
    s.fab.jobOf ch.surface ch.target = some j → j.source = ch.source → (j.stripes.map (fun y => y.stripe)).Nodup →
    x ∈ j.stripes → x.stripe = ch.stripe → x.st = .copying →
    let isRead := (s.tag k).kind = .copyRead
    let damaged := q.damaged || decide (res ≠ .okay)
    let started := ∀ y, s.fab.copy.current = some y → ¬ (y.surface = ch.surface ∧ y.target = ch.target ∧ y.stripe = ch.stripe)
    let last := x.chunks ≤ 1 ∧ started
    let ended := last ∧ ∀ y ∈ j.stripes, y.stripe ≠ ch.stripe → y.st = .done
    let writes := if isRead then q.copyWrites else q.copyWrites - 1
    let ready := q.st = .closing ∧ ended ∧ q.prodWrites = 0 ∧ q.merges = 0 ∧ writes = 0
    let ofJob := fun y : CopyJob => decide (y.surface = ch.surface) && decide (y.target = ch.target)
    let name := fun y : CopyJob => (y.surface, y.source, y.target)
    let record := fun (kind : EventKind) (pipe : Byte) (buffer : Nat) (seq detail : Nat) => ({
      kind := kind, surface := BitVec.ofNat 8 ch.surface.val, pipe := pipe, buffer := BitVec.ofNat 8 buffer,
      seq := BitVec.ofNat 32 seq, detail := BitVec.ofNat 16 detail, stamp := s.timebase } : EventRecord)
    let pipe := (s.surf ch.surface).desc.pipe
    -- `g` is the fabric as the engine then finds it
    ∃ t g, exec c s = .next t ∧ t.fab = Fabric.runEngine 5 g ∧
      (t.surf ch.surface).bufs[ch.source]? = some ({ r with
        copyReads := if isRead then r.copyReads - 1 else r.copyReads, hold := r.hold && !decide ended } : BufRec).tested ∧
      (t.surf ch.surface).bufs[ch.target]? = some { q with
        copyWrites := writes, damaged := damaged, st := if ready then .ready else q.st } ∧
      (t.surf ch.surface).present = (s.surf ch.surface).present ++ (if ready then [ch.target] else []) ∧
      (t.surf ch.surface).closing = (if ready then rest else (s.surf ch.surface).closing) ∧
      t.fab.events = ((if res = .timeout then
          [record .tagTimeout (idByte (s.tag k).pipe) (if isRead then ch.source else ch.target)
            (if isRead then r.content else q.content) k.val] else []) ++
        (if res ≠ .okay ∧ x.fault = false then [record .copyFault pipe ch.target q.content ch.stripe] else []) ++
        (if ready then [record .frameReady pipe ch.target q.content (if damaged then 1 else 0)] else [])).foldl
          appendEvent s.fab.events ∧
      t.tag k = (if res = .timeout then { s.tag k with st := .quarantined, upRef := none } else TagEntry.cleared) ∧
      t.issued = s.issued ∧
      g.copy.slots = s.fab.copy.slots.filter (fun y => y.id != ch.id) ∧ g.copy.current = s.fab.copy.current ∧
      g.copy.queue.map name = (s.fab.copy.queue.filter (fun y => !decide ended || !ofJob y) ++
        if ended then ((s.surf ch.surface).deferred.filter (fun y => !ofJob y)).take 1 else []).map name ∧
      (∀ i, i ≠ ch.surface → g.surf i = s.surf i) ∧ (g.surf ch.surface).head = (s.surf ch.surface).head ∧
      g.jobOf ch.surface ch.target = if ended then none else some { j with
        stripes := j.stripes.map (fun y => if y.stripe = ch.stripe then
          { y with chunks := y.chunks - 1, fault := y.fault || decide (res ≠ .okay), st := if last then .done else y.st }
          else y) }) ∧
  -- a lane head that waits on the stripe, which its last chunk's write makes DONE
  (∀ (s : State) (k : Fin 32) (ch : Chunk) (q : BufRec) (j : CopyJob) (x : StripeRec) (m : Mapping) (e : LaneReq)
      (es : List LaneReq) (data : List Byte),
    s.AtRest → s.device = .running → (s.tag k).st = .issued → (s.tag k).surface = some ch.surface →
    (s.tag k).buffer = some ch.target → (s.tag k).kind = .copyWrite → (s.tag k).route = .chunk ch.id →
    (s.surf ch.surface).life = .attached → (s.surf ch.surface).lane = e :: es → (s.surf ch.surface).head = .mapped m →
    m.buf = ch.target → (s.surf ch.surface).bufs[ch.target]? = some q → q.st = .filling → (s.surf ch.surface).closing = [] →
    (s.surf ch.surface).mergeOutstanding = false →
    s.fab.copy.slots.find? (fun y => y.id == ch.id) = some ch → ch.orphan = false →
    s.fab.jobOf ch.surface ch.target = some j → (j.stripes.map (fun y => y.stripe)).Nodup →
    x ∈ j.stripes → x.stripe = ch.stripe → x.st = .copying → x.chunks ≤ 1 →
    (∀ y, s.fab.copy.current = some y → ¬ (y.surface = ch.surface ∧ y.target = ch.target ∧ y.stripe = ch.stripe)) →
    let waits := ∃ y ∈ j.stripes, y.stripe ∈ m.stripes ∧ y.stripe ≠ ch.stripe ∧ y.st ≠ .done
    ∃ t, exec (.downstreamResponse k .okay data) s = .next t ∧
      (waits → (t.surf ch.surface).head = .mapped m ∧ (t.surf ch.surface).lane = e :: es) ∧
      ∀ ps run, ¬ waits → m.plan = .direct ps →
        let h := match e.req.kind with
          | .write => handleWrite m.buf (s.surf ch.surface).slot [] ps
          | .read => handleRead m.buf (s.surf ch.surface).slot [] ps
        h.part = some run →
          (t.surf ch.surface).head = .bound { buf := m.buf, issued := false, todo := h.todo, parts := [run] } ∧
            (t.surf ch.surface).slot = h.slot ∧ (t.surf ch.surface).lane = e :: es) ∧
  -- the selection of a stripe
  (∀ f : Fabric, (∀ q ∈ f.copy.queue, (q.stripes.map (fun r => r.stripe)).Pairwise (· < ·)) →
    (f.copy.current ≠ none ∨ (∀ j x, ¬ f.Selects j x) → f.select = f) ∧
    ∀ j x, f.copy.current = none → f.Selects j x →
      let sh := ((f.surf j.surface).desc.height.toNat + 31) / 32
      f.select.copy = { f.copy with
        current := some { surface := j.surface, target := j.target, stripe := x, row := x * sh, off := 0 }
        queue := f.copy.queue.map (fun q => if q.surface = j.surface ∧ q.target = j.target then
          { q with stripes := q.stripes.map (fun r => if r.stripe = x then { r with st := .copying } else r) } else q) }) ∧
  -- the start of a chunk
  (∀ (f : Fabric) (c : CurrentStripe) (j : CopyJob), f.jobOf c.surface c.target = some j →
    let d := (f.surf c.surface).desc
    let ch := (f.surf c.surface).chunkAt f.copy.nextChunk c.surface j.source c.target c.stripe c.row c.off
    (f.startChunk c).copy =
      { slots := f.copy.slots ++ [ch], nextChunk := f.copy.nextChunk + 1
        current := if c.off + ch.len < 4 * d.width.toNat then some { c with off := c.off + ch.len }
          else if c.row + 1 < min d.height.toNat ((c.stripe + 1) * ((d.height.toNat + 31) / 32)) then
            some { c with row := c.row + 1, off := 0 }
          else none
        queue := f.copy.queue.map (fun q => if q.surface = c.surface ∧ q.target = c.target then
          { q with stripes := q.stripes.map (fun r => if r.stripe = c.stripe then { r with chunks := r.chunks + 1 } else r) }
          else q) }) ∧
  -- the engine goes on until the four slots are taken or nothing is left to select
  ∀ (f : Fabric) (n : Nat),
    (∀ c, f.select.copy.current = some c → f.select.copy.slots.length < 4 →
      Fabric.runEngine (n + 1) f = Fabric.runEngine n (f.select.startChunk c)) ∧
    (f.select.copy.current = none ∨ 4 ≤ f.select.copy.slots.length → Fabric.runEngine (n + 1) f = f.select)

/-- R163: a late response is discarded, its tag is freed and LATE_RESPONSE is appended; nothing else changes. -/
def Obligations.LateResponseDiscarded : Prop :=
  ∀ (s : State) (k : Fin 32) (code : DownCode) (data : List Byte), s.AtRest → (s.tag k).st = .quarantined →
    exec (.downstreamResponse k code data) s = .next
      ({ s with fab := { s.fab with
        events := appendEvent s.fab.events
          { kind := .lateResponse, surface := idByte ((s.tag k).surface.map (fun i : Fin 8 => i.val)),
            pipe := idByte (s.tag k).pipe, buffer := idByte (s.tag k).buffer, seq := 0,
            detail := BitVec.ofNat 16 k.val, stamp := s.timebase } } }.setTag k TagEntry.cleared)

/-- R161, R162, R165: an ISSUED tag whose limit has been reached is QUARANTINED with its fields but for the upstream reference, and
every other tag stays. Its owner is completed with TIMEOUT and TAG_TIMEOUT is appended: a pass-through request with its last part out
is answered, and a producer or scanout part counts out of its buffer, a WRITE damaging it. The last expiry of a DETACHING surface ends
its drain (R33, R39), and the last one in RESETTING makes the device RUNNING (R186); that an orphan chunk's expiry damages the buffer
it was to write is the model's reading (log 22). For any other tag TAG_TIMEOUT changes nothing, which is the model's choice (log 18). -/
def Obligations.TagExpires : Prop :=
  ∀ (s : State) (k : Fin 32),
    (s.Expired k →
      ∃ t, exec (.tagTimeout k) s = .next t ∧ t.tag k = { s.tag k with st := .quarantined, upRef := none } ∧
        (∀ j, j ≠ k → t.tag j = s.tag j) ∧ t.issued = s.issued ∧ ({ s with device := t.device } : State).SameElsewhere t ∧
        (s.LastOfReset k → t.device = .running) ∧ (¬ s.LastOfReset k → t.device = s.device)) ∧
    (∀ i b, s.Draining k i b → s.Expired k → ∃ t, exec (.tagTimeout k) s = .next t ∧ s.DrainDecided t k i b .timeout) ∧
    (s.AtRest → s.device = .resetting → s.Expired k → (s.tag k).kind = .pass → (s.tag k).surface = none →
      (s.tag k).pipe = none → (s.tag k).buffer = none →
      ∃ t, exec (.tagTimeout k) s = .next t ∧
        let events := appendEvent s.fab.events
          { kind := .tagTimeout, surface := 0xFF, pipe := 0xFF, buffer := 0xFF, seq := 0, detail := BitVec.ofNat 16 k.val,
            stamp := s.timebase }
        (s.LastOfReset k → t.fab.events = appendEvent events s.resetDone) ∧ (¬ s.LastOfReset k → t.fab.events = events)) ∧
    (∀ p : RespRecord, s.Expired k → s.device = .running → s.AtRest → (s.tag k).kind = .pass → (s.tag k).surface = none →
      (s.tag k).pipe = none → (s.tag k).buffer = none → (s.tag k).upRef = some p.id →
      s.fab.records.find? (fun q => q.id == p.id) = some p → p.issued = 1 → p.mark = true →
      exec (.tagTimeout k) s = .next
        ({ s with fab := { s.fab with
          records := s.fab.records.filter (fun q => q.id != p.id),
          sent := s.fab.sent ++
            [({ tag := p.tag, code := if p.worst = Worst.fault then UpCode.fault else UpCode.timeout, data := [] } : UpResponse)],
          events := appendEvent s.fab.events
            { kind := .tagTimeout, surface := 0xFF, pipe := 0xFF, buffer := 0xFF, seq := 0,
              detail := BitVec.ofNat 16 k.val, stamp := s.timebase } } }.setTag k
          { s.tag k with st := .quarantined, upRef := none })) ∧
    (∀ i b r p, s.InFlight k i b r → s.Expired k → (s.tag k).upRef = some p.id →
      s.fab.records.find? (fun q => q.id == p.id) = some p → 1 ≤ p.issued →
      (s.tag k).kind = .producerWrite ∨ (s.tag k).kind = .producerRead ∨ (s.tag k).kind = .scanoutRead →
      ∃ t, exec (.tagTimeout k) s = .next t ∧ s.PartFails t k i b r p .tagTimeout .timeout) ∧
    (¬ s.Expired k → exec (.tagTimeout k) s = .next s)

/-! ## Boundaries and the hold limit -/

/-- R114, R124: an edge on a disabled pipe is ignored; on an enabled pipe the counter rises by 1, every ATTACHED surface of the
pipe latches its pending values, no other surface does, and no other pipe changes. The request taken between the boundary's
two events is the model's operand (log 16). -/
def Obligations.BoundaryDelivered : Prop :=
  ∀ (s : State) (p : Fin 4),
    ((s.pipes.get p).enabled = false → exec (.boundary p none) s = .next s) ∧
    ((s.pipes.get p).enabled = true → ∀ between : Option Between,
      ∃ t, exec (.boundary p between) s = .next t ∧
        t.pipes.get p = { s.pipes.get p with counter := (s.pipes.get p).counter + 1 } ∧
        (∀ q, q ≠ p → t.pipes.get q = s.pipes.get q) ∧
        (∀ i, (t.surf i).scrollPending = (s.surf i).scrollPending ∧ (t.surf i).topPending = (s.surf i).topPending ∧
          (t.surf i).bottomPending = (s.surf i).bottomPending ∧
          (if (s.surf i).life = .attached ∧ (s.surf i).desc.pipeIndex = p then
            (t.surf i).scrollActive = (s.surf i).scrollPending ∧ (t.surf i).topActive = (s.surf i).topPending ∧
              (t.surf i).bottomActive = (s.surf i).bottomPending
           else (t.surf i).scrollActive = (s.surf i).scrollActive ∧ (t.surf i).topActive = (s.surf i).topActive ∧
              (t.surf i).bottomActive = (s.surf i).bottomActive)) ∧
        t.tags = s.tags ∧ t.issued = s.issued ∧ t.device = s.device ∧ t.timebase = s.timebase ∧ t.limit = s.limit ∧
        t.tables = s.tables ∧ t.link = s.link ∧ t.mask = s.mask ∧ t.pending = s.pending)

/-- R116 to R120, R122, R93, R95: a boundary of an enabled pipe with one surface on it. Under QUEUE the oldest READY buffer is flipped in,
and FLIP is appended. Under LATEST the newest is, and those ahead of it are superseded, each with a FRAME_SKIPPED record before the
FLIP. A buffer that a flip or LATEST sets FREE is opened for a head that waits (R93), after the whole of the boundary (log 11), unless
the hold limit is reached first (R94). A SHOWN buffer shown too short stays and ages. Where close on boundary is on, a touched fill is closed, or left close pending
behind a bound head; behind a mapped head it is closed at once, and the head asks anew (State.Closed, State.AfterClose). An untouched
fill goes on, and so does every fill where it is off. -/
def Obligations.BoundaryFlips : Prop :=
  ∀ (s : State) (p : Fin 4) (i : Fin 8),
    s.AtRest → (s.pipes.get p).enabled = true → s.fab.onPipe p = [i] → BuffersSafe (s.surf i) →
    let su := s.surf i
    let n := BitVec.ofNat 16 (((s.pipes.get p).counter + 1).toNat % 65536)
    let record := fun (kind : EventKind) (k : Nat) (seq : Nat) (detail : Half) => ({
      kind := kind, surface := BitVec.ofNat 8 i.val, pipe := su.desc.pipe, buffer := BitVec.ofNat 8 k,
      seq := BitVec.ofNat 32 seq, detail := detail, stamp := s.timebase } : EventRecord)
    let outOfUse := fun x : BufRec => if x.countsZero = true ∧ x.hold = false then BufState.free else .draining
    let mayFlip := ∀ x ∈ su.bufs, x.st = .shown → su.desc.minShow.toNat ≤ min 255 (x.age + 1)
    let idle := su.lane = [] ∧ su.head = .fresh
    let leaves := fun (t : State) (k : Nat) => ∀ x : BufRec, su.bufs[k]? = some x →
      ∃ x' : BufRec, (t.surf i).bufs[k]? = some x' ∧ x'.content = x.content ∧ x'.st = outOfUse x
    -- QUEUE
    (∀ (b : Nat) (bs : List Nat) (r : BufRec), idle → su.desc.present = 0 → su.desc.flags.getLsbD 1 = false → su.present = b :: bs →
      su.bufs[b]? = some r → r.st = .ready → mayFlip →
      ∃ t r', exec (.boundary p none) s = .next t ∧ (t.surf i).bufs[b]? = some r' ∧ r'.st = .shown ∧ r'.age = 0 ∧
        r'.content = r.content ∧ (t.surf i).present = bs ∧
        (∀ (k : Nat) (x : BufRec), su.bufs[k]? = some x → x.st = .shown → leaves t k) ∧
        t.fab.events = appendEvent s.fab.events (record .flip b r.content n)) ∧
    -- LATEST
    (∀ (b : Nat) (bs : List Nat) (r : BufRec), ListsSafe su → idle → su.desc.present = 1 → su.desc.flags.getLsbD 1 = false → su.present = bs ++ [b] →
      su.bufs[b]? = some r → mayFlip →
      ∃ t r', exec (.boundary p none) s = .next t ∧ (t.surf i).bufs[b]? = some r' ∧ r'.st = .shown ∧ r'.age = 0 ∧
        r'.content = r.content ∧ (t.surf i).present = [] ∧ (∀ k ∈ bs, leaves t k) ∧
        (∀ (k : Nat) (x : BufRec), su.bufs[k]? = some x → x.st = .shown → leaves t k) ∧
        t.fab.events = appendEvent
          (bs.foldl (fun q k => appendEvent q (record .frameSkipped k (su.buf k).content n)) s.fab.events)
          (record .flip b r.content n)) ∧
    -- a flip while the lane head waits for a buffer
    (∀ (b : Nat) (bs skipped : List Nat), ListsSafe su → su.lane ≠ [] → su.head = .waiting → su.closePending = false →
      mayFlip → (let limit := su.desc.holdLimit.toNat; limit = 0 ∨ min 15 (su.holdWait + 1) < limit) →
      (su.desc.present = 0 ∧ su.present = b :: bs ∧ skipped = [] ∨
        su.desc.present = 1 ∧ su.present = skipped ++ [b] ∧ bs = []) →
      let u : Surface := { su with
        holdWait := min 15 (su.holdWait + 1)
        present := bs
        bufs := su.bufs.mapIdx (fun k x => if k = b then { x with st := .shown }
          else if x.st = .shown ∨ k ∈ skipped then { x with st := x.unused } else x) }
      ∃ t, exec (.boundary p none) s = .next t ∧ t.HeadDecided i u false ∧ (t.surf i).present = bs ∧
        (su.desc.flags.getLsbD 2 = false → t.fab.events = appendEvent
          (skipped.foldl (fun q k => appendEvent q (record .frameSkipped k (su.buf k).content n)) s.fab.events)
          (record .flip b (su.buf b).content n))) ∧
    -- no flip
    (∀ (k : Nat) (x : BufRec), idle → su.desc.flags.getLsbD 1 = false → su.bufs[k]? = some x → x.st = .shown →
      (su.present = [] ∨ min 255 (x.age + 1) < su.desc.minShow.toNat) →
      ∃ t, exec (.boundary p none) s = .next t ∧ (t.surf i).bufs[k]? = some { x with age := min 255 (x.age + 1) } ∧
        (∀ l, l ≠ k → (t.surf i).bufs[l]? = su.bufs[l]?) ∧ (t.surf i).present = su.present ∧
        t.fab.events = s.fab.events) ∧
    -- close on boundary
    ∀ (b : Nat) (r : BufRec), ListsSafe su → su.bufs[b]? = some r → r.st = .filling →
      (su.desc.flags.getLsbD 1 = true → r.touched = true → idle → su.closing = [] →
        let seq := if su.frameCounter = 0xFFFFFFFF then 1 else su.frameCounter + 1
        ∃ t r', exec (.boundary p none) s = .next t ∧ (t.surf i).bufs[b]? = some r' ∧ r'.content = seq ∧
          (t.surf i).frameCounter = seq ∧ (t.surf i).latch = none ∧ (t.surf i).slot = none ∧
          (t.surf i).closePending = false ∧
          (if r.prodWrites = 0 ∧ r'.merges = 0 ∧ r.copyWrites = 0 ∧ s.fab.jobOf i b = none then
            r'.st = .ready ∧ (t.surf i).present.getLast? = some b ∧
              (su.present = [] → t.fab.events =
                appendEvent s.fab.events (record .frameReady b seq (if r.damaged then 1 else 0)))
           else r'.st = .closing ∧ b ∉ (t.surf i).present ∧ (su.present = [] → t.fab.events = s.fab.events))) ∧
      (su.desc.flags.getLsbD 1 = true → r.touched = true → su.lane ≠ [] → (∃ bd, su.head = .bound bd) →
        ∃ t, exec (.boundary p none) s = .next t ∧ (t.surf i).closePending = true ∧ (t.surf i).bufs[b]? = some r ∧
          (t.surf i).head = su.head ∧ (t.surf i).lane = su.lane ∧ (t.surf i).frameCounter = su.frameCounter) ∧
      (su.desc.flags.getLsbD 1 = true → r.touched = true → su.lane ≠ [] → (∃ m, su.head = .mapped m) → su.closing = [] →
        (su.present = [] ∨ ∃ x ∈ su.bufs, x.st = .shown ∧ min 255 (x.age + 1) < su.desc.minShow.toNat) →
        let v : Surface := { su with
          scrollActive := su.scrollPending, topActive := su.topPending, bottomActive := su.bottomPending
          bufs := su.bufs.map (fun x => if x.st = .shown then { x with age := min 255 (x.age + 1) } else x) }
        ∃ t u events, exec (.boundary p none) s = .next t ∧ (s.modSurf i (fun _ => v)).Closed i b r u events ∧
          (s.modSurf i (fun _ => v)).AfterClose t i u events) ∧
      (su.desc.flags.getLsbD 1 = false ∨ r.touched = false →
        ∃ t, exec (.boundary p none) s = .next t ∧ (t.surf i).closePending = su.closePending ∧
          (t.surf i).bufs[b]? = some r ∧ (t.surf i).head = su.head ∧ (t.surf i).lane = su.lane ∧
          (t.surf i).latch = su.latch ∧ (t.surf i).slot = su.slot ∧ (t.surf i).frameCounter = su.frameCounter)

/-- R94, R15: at the increment that reaches the hold limit every request of the lane is answered RETRY, HOLD_EXPIRED is appended and
the counter becomes 0; below the limit the counter alone rises. BOUNDARY takes the expiry inside its step 1 (R116), and
HOLD_LIMIT_EXPIRY takes one that an increment has found and nothing else, so that a limit lowered to the counter waits for the next
increment (R38). A command of its own for it is the model's choice (log 14), and so is the order in which the RETRY answers leave,
which is the lane's (log 13). -/
def Obligations.HoldLimitExpires : Prop :=
  ∀ (s : State) (i : Fin 8), s.AtRest → (s.surf i).life = .attached → (s.surf i).head = .waiting →
    (s.surf i).lane ≠ [] → ((s.surf i).lane.map (fun q => q.id)).Nodup →
    (∀ q ∈ (s.surf i).lane, ∃ r, s.fab.records.find? (fun x => x.id == q.id) = some r ∧ r.tag = q.req.tag) →
    let retries := s.fab.sent ++ (s.surf i).lane.map (fun q => ({ tag := q.req.tag, code := .retry, data := [] } : UpResponse))
    let expired := appendEvent s.fab.events
      { kind := .holdExpired, surface := BitVec.ofNat 8 i.val, pipe := (s.surf i).desc.pipe, buffer := 0xFF,
        seq := 0, detail := BitVec.ofNat 16 (s.surf i).lane.length, stamp := s.timebase }
    ((s.surf i).holdReached = true →
      exec (.holdLimitExpiry i) s = .next
        { s with fab := { s.fab.modSurf i (fun su => { su with
              lane := [], head := .fresh, holdWait := 0, holdReached := false }) with
            records := s.fab.records.filter (fun x => !(s.surf i).lane.any (fun q => q.id == x.id)),
            sent := retries, events := expired } }) ∧
    ((s.surf i).holdReached = false → exec (.holdLimitExpiry i) s = .next s) ∧
    (∀ p, (s.pipes.get p).enabled = true → s.fab.onPipe p = [i] → (s.surf i).present = [] → BuffersSafe (s.surf i) →
      ∃ t, exec (.boundary p none) s = .next t ∧
        let n := min 15 ((s.surf i).holdWait + 1)
        if (s.surf i).desc.holdLimit.toNat ≠ 0 ∧ (s.surf i).desc.holdLimit.toNat ≤ n then
          (t.surf i).lane = [] ∧ (t.surf i).head = .fresh ∧ (t.surf i).holdWait = 0 ∧
            (t.surf i).holdReached = false ∧ t.fab.sent = retries ∧ t.fab.events = expired
        else
          (t.surf i).lane = (s.surf i).lane ∧ (t.surf i).head = .waiting ∧ (t.surf i).holdWait = n ∧
            (t.surf i).holdReached = false ∧ t.fab.sent = s.fab.sent ∧ t.fab.events = s.fab.events)
end

