-- ==== Sys2Proof/Laws/State.lean ====
section
/-! SUPPORT. One lemma per field per update of State, Fabric and Surface, so that no later proof unfolds a record update. -/

namespace Sys2Proof.Machine

/-! ## Reading back a surface -/

/-- A vector entry by its index. -/
theorem vectorGet {α : Type} {n : Nat} (v : Vector α n) (i : Fin n) : v.get i = v[i.val] := rfl

@[simp] theorem Fabric.surf_modSurf_same (f : Fabric) (i : Fin 8) (g : Surface → Surface) :
    (f.modSurf i g).surf i = g (f.surf i) := by
  simp [Fabric.surf, Fabric.modSurf, vectorGet]

@[simp] theorem Fabric.surf_modSurf_other (f : Fabric) {i k : Fin 8} (g : Surface → Surface) (h : i ≠ k) :
    (f.modSurf i g).surf k = f.surf k := by
  have h' : i.val ≠ k.val := fun e => h (Fin.ext e)
  simp [Fabric.surf, Fabric.modSurf, vectorGet, h']

theorem Fabric.surf_modSurf (f : Fabric) (i k : Fin 8) (g : Surface → Surface) :
    (f.modSurf i g).surf k = if i = k then g (f.surf k) else f.surf k := by
  by_cases h : i = k
  · subst h; simp
  · simp [h]

@[simp] theorem Fabric.surf_modBuf_same (f : Fabric) (i : Fin 8) (b : Nat) (g : BufRec → BufRec) :
    (f.modBuf i b g).surf i = (f.surf i).modBuf b g := by
  simp [Fabric.modBuf]

@[simp] theorem Fabric.surf_modBuf_other (f : Fabric) {i k : Fin 8} (b : Nat) (g : BufRec → BufRec) (h : i ≠ k) :
    (f.modBuf i b g).surf k = f.surf k := by
  simp [Fabric.modBuf, h]

@[simp] theorem State.surf_modSurf_same (s : State) (i : Fin 8) (g : Surface → Surface) :
    (s.modSurf i g).surf i = g (s.surf i) := by
  simp [State.modSurf, State.surf]

@[simp] theorem State.surf_modSurf_other (s : State) {i k : Fin 8} (g : Surface → Surface) (h : i ≠ k) :
    (s.modSurf i g).surf k = s.surf k := by
  simp [State.modSurf, State.surf, h]

/-! ## Reading back a tag -/

@[simp] theorem State.tag_setTag_same (s : State) (t : Fin 32) (e : TagEntry) : (s.setTag t e).tag t = e := by
  simp [State.tag, State.setTag, vectorGet]

@[simp] theorem State.tag_setTag_other (s : State) {t k : Fin 32} (e : TagEntry) (h : t ≠ k) :
    (s.setTag t e).tag k = s.tag k := by
  have h' : t.val ≠ k.val := fun e => h (Fin.ext e)
  simp [State.tag, State.setTag, vectorGet, h']

/-! ## The part -/

@[simp] theorem State.finish_device (s : State) :
    (s.finish).device = s.device := by
  simp only [State.finish, State.onFabric]
@[simp] theorem State.finish_timebase (s : State) :
    (s.finish).timebase = s.timebase := by
  simp only [State.finish, State.onFabric]
@[simp] theorem State.finish_tags (s : State) :
    (s.finish).tags = s.tags := by
  simp only [State.finish, State.onFabric]
@[simp] theorem State.finish_limit (s : State) :
    (s.finish).limit = s.limit := by
  simp only [State.finish, State.onFabric]
@[simp] theorem State.finish_issued (s : State) :
    (s.finish).issued = s.issued := by
  simp only [State.finish, State.onFabric]
@[simp] theorem State.finish_pipes (s : State) :
    (s.finish).pipes = s.pipes := by
  simp only [State.finish, State.onFabric]
@[simp] theorem State.finish_tables (s : State) :
    (s.finish).tables = s.tables := by
  simp only [State.finish, State.onFabric]
@[simp] theorem State.finish_link (s : State) :
    (s.finish).link = s.link := by
  simp only [State.finish, State.onFabric]
@[simp] theorem State.finish_mask (s : State) :
    (s.finish).mask = s.mask := by
  simp only [State.finish, State.onFabric]
@[simp] theorem State.finish_cdo (s : State) :
    (s.finish).cdo = s.cdo := by
  simp only [State.finish, State.onFabric]
@[simp] theorem State.finish_freeCount (s : State) :
    (s.finish).freeCount = s.freeCount := by
  simp only [State.finish, State.onFabric]
@[simp] theorem State.finish_pending (s : State) :
    (s.finish).pending = s.pending := by
  simp only [State.finish, State.onFabric]

@[simp] theorem State.onFabric_device (s : State) (g : Env → Fabric → Fabric) :
    (s.onFabric g).device = s.device := rfl
@[simp] theorem State.onFabric_timebase (s : State) (g : Env → Fabric → Fabric) :
    (s.onFabric g).timebase = s.timebase := rfl
@[simp] theorem State.onFabric_tags (s : State) (g : Env → Fabric → Fabric) :
    (s.onFabric g).tags = s.tags := rfl
@[simp] theorem State.onFabric_limit (s : State) (g : Env → Fabric → Fabric) :
    (s.onFabric g).limit = s.limit := rfl
@[simp] theorem State.onFabric_issued (s : State) (g : Env → Fabric → Fabric) :
    (s.onFabric g).issued = s.issued := rfl
@[simp] theorem State.onFabric_pipes (s : State) (g : Env → Fabric → Fabric) :
    (s.onFabric g).pipes = s.pipes := rfl
@[simp] theorem State.onFabric_tables (s : State) (g : Env → Fabric → Fabric) :
    (s.onFabric g).tables = s.tables := rfl
@[simp] theorem State.onFabric_link (s : State) (g : Env → Fabric → Fabric) :
    (s.onFabric g).link = s.link := rfl
@[simp] theorem State.onFabric_mask (s : State) (g : Env → Fabric → Fabric) :
    (s.onFabric g).mask = s.mask := rfl
@[simp] theorem State.onFabric_cdo (s : State) (g : Env → Fabric → Fabric) :
    (s.onFabric g).cdo = s.cdo := rfl
@[simp] theorem State.onFabric_freeCount (s : State) (g : Env → Fabric → Fabric) :
    (s.onFabric g).freeCount = s.freeCount := rfl
@[simp] theorem State.onFabric_pending (s : State) (g : Env → Fabric → Fabric) :
    (s.onFabric g).pending = s.pending := rfl

@[simp] theorem State.onLink_device (s : State) (g : Link → Link) :
    (s.onLink g).device = s.device := rfl
@[simp] theorem State.onLink_timebase (s : State) (g : Link → Link) :
    (s.onLink g).timebase = s.timebase := rfl
@[simp] theorem State.onLink_fab (s : State) (g : Link → Link) :
    (s.onLink g).fab = s.fab := rfl
@[simp] theorem State.onLink_tags (s : State) (g : Link → Link) :
    (s.onLink g).tags = s.tags := rfl
@[simp] theorem State.onLink_limit (s : State) (g : Link → Link) :
    (s.onLink g).limit = s.limit := rfl
@[simp] theorem State.onLink_issued (s : State) (g : Link → Link) :
    (s.onLink g).issued = s.issued := rfl
@[simp] theorem State.onLink_pipes (s : State) (g : Link → Link) :
    (s.onLink g).pipes = s.pipes := rfl
@[simp] theorem State.onLink_tables (s : State) (g : Link → Link) :
    (s.onLink g).tables = s.tables := rfl
@[simp] theorem State.onLink_mask (s : State) (g : Link → Link) :
    (s.onLink g).mask = s.mask := rfl
@[simp] theorem State.onLink_cdo (s : State) (g : Link → Link) :
    (s.onLink g).cdo = s.cdo := rfl
@[simp] theorem State.onLink_freeCount (s : State) (g : Link → Link) :
    (s.onLink g).freeCount = s.freeCount := rfl
@[simp] theorem State.onLink_pending (s : State) (g : Link → Link) :
    (s.onLink g).pending = s.pending := rfl

@[simp] theorem State.setTag_device (s : State) (t : Fin 32) (e : TagEntry) :
    (s.setTag t e).device = s.device := rfl
@[simp] theorem State.setTag_timebase (s : State) (t : Fin 32) (e : TagEntry) :
    (s.setTag t e).timebase = s.timebase := rfl
@[simp] theorem State.setTag_fab (s : State) (t : Fin 32) (e : TagEntry) :
    (s.setTag t e).fab = s.fab := rfl
@[simp] theorem State.setTag_limit (s : State) (t : Fin 32) (e : TagEntry) :
    (s.setTag t e).limit = s.limit := rfl
@[simp] theorem State.setTag_issued (s : State) (t : Fin 32) (e : TagEntry) :
    (s.setTag t e).issued = s.issued := rfl
@[simp] theorem State.setTag_pipes (s : State) (t : Fin 32) (e : TagEntry) :
    (s.setTag t e).pipes = s.pipes := rfl
@[simp] theorem State.setTag_tables (s : State) (t : Fin 32) (e : TagEntry) :
    (s.setTag t e).tables = s.tables := rfl
@[simp] theorem State.setTag_link (s : State) (t : Fin 32) (e : TagEntry) :
    (s.setTag t e).link = s.link := rfl
@[simp] theorem State.setTag_mask (s : State) (t : Fin 32) (e : TagEntry) :
    (s.setTag t e).mask = s.mask := rfl
@[simp] theorem State.setTag_cdo (s : State) (t : Fin 32) (e : TagEntry) :
    (s.setTag t e).cdo = s.cdo := rfl
@[simp] theorem State.setTag_freeCount (s : State) (t : Fin 32) (e : TagEntry) :
    (s.setTag t e).freeCount = s.freeCount := rfl
@[simp] theorem State.setTag_pending (s : State) (t : Fin 32) (e : TagEntry) :
    (s.setTag t e).pending = s.pending := rfl

@[simp] theorem State.modSurf_device (s : State) (i : Fin 8) (g : Surface → Surface) :
    (s.modSurf i g).device = s.device := rfl
@[simp] theorem State.modSurf_timebase (s : State) (i : Fin 8) (g : Surface → Surface) :
    (s.modSurf i g).timebase = s.timebase := rfl
@[simp] theorem State.modSurf_tags (s : State) (i : Fin 8) (g : Surface → Surface) :
    (s.modSurf i g).tags = s.tags := rfl
@[simp] theorem State.modSurf_limit (s : State) (i : Fin 8) (g : Surface → Surface) :
    (s.modSurf i g).limit = s.limit := rfl
@[simp] theorem State.modSurf_issued (s : State) (i : Fin 8) (g : Surface → Surface) :
    (s.modSurf i g).issued = s.issued := rfl
@[simp] theorem State.modSurf_pipes (s : State) (i : Fin 8) (g : Surface → Surface) :
    (s.modSurf i g).pipes = s.pipes := rfl
@[simp] theorem State.modSurf_tables (s : State) (i : Fin 8) (g : Surface → Surface) :
    (s.modSurf i g).tables = s.tables := rfl
@[simp] theorem State.modSurf_link (s : State) (i : Fin 8) (g : Surface → Surface) :
    (s.modSurf i g).link = s.link := rfl
@[simp] theorem State.modSurf_mask (s : State) (i : Fin 8) (g : Surface → Surface) :
    (s.modSurf i g).mask = s.mask := rfl
@[simp] theorem State.modSurf_cdo (s : State) (i : Fin 8) (g : Surface → Surface) :
    (s.modSurf i g).cdo = s.cdo := rfl
@[simp] theorem State.modSurf_freeCount (s : State) (i : Fin 8) (g : Surface → Surface) :
    (s.modSurf i g).freeCount = s.freeCount := rfl
@[simp] theorem State.modSurf_pending (s : State) (i : Fin 8) (g : Surface → Surface) :
    (s.modSurf i g).pending = s.pending := rfl

@[simp] theorem State.issueAccess_device (s : State) (t : Fin 32) (a : Access) :
    (s.issueAccess t a).device = s.device := rfl
@[simp] theorem State.issueAccess_timebase (s : State) (t : Fin 32) (a : Access) :
    (s.issueAccess t a).timebase = s.timebase := rfl
@[simp] theorem State.issueAccess_fab (s : State) (t : Fin 32) (a : Access) :
    (s.issueAccess t a).fab = s.fab := rfl
@[simp] theorem State.issueAccess_limit (s : State) (t : Fin 32) (a : Access) :
    (s.issueAccess t a).limit = s.limit := rfl
@[simp] theorem State.issueAccess_pipes (s : State) (t : Fin 32) (a : Access) :
    (s.issueAccess t a).pipes = s.pipes := rfl
@[simp] theorem State.issueAccess_tables (s : State) (t : Fin 32) (a : Access) :
    (s.issueAccess t a).tables = s.tables := rfl
@[simp] theorem State.issueAccess_link (s : State) (t : Fin 32) (a : Access) :
    (s.issueAccess t a).link = s.link := rfl
@[simp] theorem State.issueAccess_mask (s : State) (t : Fin 32) (a : Access) :
    (s.issueAccess t a).mask = s.mask := rfl
@[simp] theorem State.issueAccess_cdo (s : State) (t : Fin 32) (a : Access) :
    (s.issueAccess t a).cdo = s.cdo := rfl
@[simp] theorem State.issueAccess_freeCount (s : State) (t : Fin 32) (a : Access) :
    (s.issueAccess t a).freeCount = s.freeCount := rfl
@[simp] theorem State.issueAccess_pending (s : State) (t : Fin 32) (a : Access) :
    (s.issueAccess t a).pending = s.pending := rfl

@[simp] theorem State.store_device (s : State) (asm : List Byte) :
    (s.store asm).device = s.device := rfl
@[simp] theorem State.store_timebase (s : State) (asm : List Byte) :
    (s.store asm).timebase = s.timebase := rfl
@[simp] theorem State.store_fab (s : State) (asm : List Byte) :
    (s.store asm).fab = s.fab := rfl
@[simp] theorem State.store_tags (s : State) (asm : List Byte) :
    (s.store asm).tags = s.tags := rfl
@[simp] theorem State.store_limit (s : State) (asm : List Byte) :
    (s.store asm).limit = s.limit := rfl
@[simp] theorem State.store_issued (s : State) (asm : List Byte) :
    (s.store asm).issued = s.issued := rfl
@[simp] theorem State.store_pipes (s : State) (asm : List Byte) :
    (s.store asm).pipes = s.pipes := rfl
@[simp] theorem State.store_tables (s : State) (asm : List Byte) :
    (s.store asm).tables = s.tables := rfl
@[simp] theorem State.store_mask (s : State) (asm : List Byte) :
    (s.store asm).mask = s.mask := rfl
@[simp] theorem State.store_cdo (s : State) (asm : List Byte) :
    (s.store asm).cdo = s.cdo := rfl
@[simp] theorem State.store_freeCount (s : State) (asm : List Byte) :
    (s.store asm).freeCount = s.freeCount := rfl
@[simp] theorem State.store_pending (s : State) (asm : List Byte) :
    (s.store asm).pending = s.pending := rfl

@[simp] theorem State.takeLate_device (s : State) (t : Fin 32) :
    (s.takeLate t).device = s.device := rfl
@[simp] theorem State.takeLate_timebase (s : State) (t : Fin 32) :
    (s.takeLate t).timebase = s.timebase := rfl
@[simp] theorem State.takeLate_limit (s : State) (t : Fin 32) :
    (s.takeLate t).limit = s.limit := rfl
@[simp] theorem State.takeLate_issued (s : State) (t : Fin 32) :
    (s.takeLate t).issued = s.issued := rfl
@[simp] theorem State.takeLate_pipes (s : State) (t : Fin 32) :
    (s.takeLate t).pipes = s.pipes := rfl
@[simp] theorem State.takeLate_tables (s : State) (t : Fin 32) :
    (s.takeLate t).tables = s.tables := rfl
@[simp] theorem State.takeLate_link (s : State) (t : Fin 32) :
    (s.takeLate t).link = s.link := rfl
@[simp] theorem State.takeLate_mask (s : State) (t : Fin 32) :
    (s.takeLate t).mask = s.mask := rfl
@[simp] theorem State.takeLate_cdo (s : State) (t : Fin 32) :
    (s.takeLate t).cdo = s.cdo := rfl
@[simp] theorem State.takeLate_freeCount (s : State) (t : Fin 32) :
    (s.takeLate t).freeCount = s.freeCount := rfl
@[simp] theorem State.takeLate_pending (s : State) (t : Fin 32) :
    (s.takeLate t).pending = s.pending := rfl

@[simp] theorem State.abandon_device (s : State) (h : Bool) :
    (s.abandon h).device = s.device := rfl
@[simp] theorem State.abandon_timebase (s : State) (h : Bool) :
    (s.abandon h).timebase = s.timebase := rfl
@[simp] theorem State.abandon_fab (s : State) (h : Bool) :
    (s.abandon h).fab = s.fab := rfl
@[simp] theorem State.abandon_tags (s : State) (h : Bool) :
    (s.abandon h).tags = s.tags := rfl
@[simp] theorem State.abandon_limit (s : State) (h : Bool) :
    (s.abandon h).limit = s.limit := rfl
@[simp] theorem State.abandon_issued (s : State) (h : Bool) :
    (s.abandon h).issued = s.issued := rfl
@[simp] theorem State.abandon_pipes (s : State) (h : Bool) :
    (s.abandon h).pipes = s.pipes := rfl
@[simp] theorem State.abandon_tables (s : State) (h : Bool) :
    (s.abandon h).tables = s.tables := rfl
@[simp] theorem State.abandon_mask (s : State) (h : Bool) :
    (s.abandon h).mask = s.mask := rfl
@[simp] theorem State.abandon_cdo (s : State) (h : Bool) :
    (s.abandon h).cdo = s.cdo := rfl
@[simp] theorem State.abandon_freeCount (s : State) (h : Bool) :
    (s.abandon h).freeCount = s.freeCount := rfl
@[simp] theorem State.abandon_pending (s : State) (h : Bool) :
    (s.abandon h).pending = s.pending := rfl

@[simp] theorem State.present_device (s : State) (n : Nat) (h : Bool) :
    (s.present n h).device = s.device := rfl
@[simp] theorem State.present_timebase (s : State) (n : Nat) (h : Bool) :
    (s.present n h).timebase = s.timebase := rfl
@[simp] theorem State.present_fab (s : State) (n : Nat) (h : Bool) :
    (s.present n h).fab = s.fab := rfl
@[simp] theorem State.present_tags (s : State) (n : Nat) (h : Bool) :
    (s.present n h).tags = s.tags := rfl
@[simp] theorem State.present_limit (s : State) (n : Nat) (h : Bool) :
    (s.present n h).limit = s.limit := rfl
@[simp] theorem State.present_issued (s : State) (n : Nat) (h : Bool) :
    (s.present n h).issued = s.issued := rfl
@[simp] theorem State.present_pipes (s : State) (n : Nat) (h : Bool) :
    (s.present n h).pipes = s.pipes := rfl
@[simp] theorem State.present_tables (s : State) (n : Nat) (h : Bool) :
    (s.present n h).tables = s.tables := rfl
@[simp] theorem State.present_mask (s : State) (n : Nat) (h : Bool) :
    (s.present n h).mask = s.mask := rfl
@[simp] theorem State.present_freeCount (s : State) (n : Nat) (h : Bool) :
    (s.present n h).freeCount = s.freeCount := rfl
@[simp] theorem State.present_pending (s : State) (n : Nat) (h : Bool) :
    (s.present n h).pending = s.pending := rfl

@[simp] theorem State.finish_fab (s : State) : s.finish.fab = s.fab.finish s.env := by
  simp only [State.finish, State.onFabric]
@[simp] theorem State.onFabric_fab (s : State) (g : Env → Fabric → Fabric) : (s.onFabric g).fab = g s.env s.fab := rfl
@[simp] theorem State.onLink_link (s : State) (g : Link → Link) : (s.onLink g).link = g s.link := rfl
@[simp] theorem State.modSurf_fab (s : State) (i : Fin 8) (g : Surface → Surface) :
    (s.modSurf i g).fab = s.fab.modSurf i g := rfl
@[simp] theorem State.env_setTag (s : State) (t : Fin 32) (e : TagEntry) : (s.setTag t e).env = s.env := rfl
@[simp] theorem State.env_onFabric (s : State) (g : Env → Fabric → Fabric) : (s.onFabric g).env = s.env := rfl
@[simp] theorem State.env_finish (s : State) : s.finish.env = s.env := by
  rw [State.finish, State.env_onFabric]

/-! ## The fabric -/

@[simp] theorem Fabric.modSurf_offered (f : Fabric) (i : Fin 8) (g : Surface → Surface) :
    (f.modSurf i g).offered = f.offered := rfl
@[simp] theorem Fabric.modSurf_passQ (f : Fabric) (i : Fin 8) (g : Surface → Surface) :
    (f.modSurf i g).passQ = f.passQ := rfl
@[simp] theorem Fabric.modSurf_scanQ (f : Fabric) (i : Fin 8) (g : Surface → Surface) :
    (f.modSurf i g).scanQ = f.scanQ := rfl
@[simp] theorem Fabric.modSurf_records (f : Fabric) (i : Fin 8) (g : Surface → Surface) :
    (f.modSurf i g).records = f.records := rfl
@[simp] theorem Fabric.modSurf_nextId (f : Fabric) (i : Fin 8) (g : Surface → Surface) :
    (f.modSurf i g).nextId = f.nextId := rfl
@[simp] theorem Fabric.modSurf_sent (f : Fabric) (i : Fin 8) (g : Surface → Surface) :
    (f.modSurf i g).sent = f.sent := rfl
@[simp] theorem Fabric.modSurf_copy (f : Fabric) (i : Fin 8) (g : Surface → Surface) :
    (f.modSurf i g).copy = f.copy := rfl
@[simp] theorem Fabric.modSurf_nextMerge (f : Fabric) (i : Fin 8) (g : Surface → Surface) :
    (f.modSurf i g).nextMerge = f.nextMerge := rfl
@[simp] theorem Fabric.modSurf_nextStamp (f : Fabric) (i : Fin 8) (g : Surface → Surface) :
    (f.modSurf i g).nextStamp = f.nextStamp := rfl
@[simp] theorem Fabric.modSurf_events (f : Fabric) (i : Fin 8) (g : Surface → Surface) :
    (f.modSurf i g).events = f.events := rfl

@[simp] theorem Fabric.modBuf_offered (f : Fabric) (i : Fin 8) (b : Nat) (g : BufRec → BufRec) :
    (f.modBuf i b g).offered = f.offered := rfl
@[simp] theorem Fabric.modBuf_passQ (f : Fabric) (i : Fin 8) (b : Nat) (g : BufRec → BufRec) :
    (f.modBuf i b g).passQ = f.passQ := rfl
@[simp] theorem Fabric.modBuf_scanQ (f : Fabric) (i : Fin 8) (b : Nat) (g : BufRec → BufRec) :
    (f.modBuf i b g).scanQ = f.scanQ := rfl
@[simp] theorem Fabric.modBuf_records (f : Fabric) (i : Fin 8) (b : Nat) (g : BufRec → BufRec) :
    (f.modBuf i b g).records = f.records := rfl
@[simp] theorem Fabric.modBuf_nextId (f : Fabric) (i : Fin 8) (b : Nat) (g : BufRec → BufRec) :
    (f.modBuf i b g).nextId = f.nextId := rfl
@[simp] theorem Fabric.modBuf_sent (f : Fabric) (i : Fin 8) (b : Nat) (g : BufRec → BufRec) :
    (f.modBuf i b g).sent = f.sent := rfl
@[simp] theorem Fabric.modBuf_copy (f : Fabric) (i : Fin 8) (b : Nat) (g : BufRec → BufRec) :
    (f.modBuf i b g).copy = f.copy := rfl
@[simp] theorem Fabric.modBuf_nextMerge (f : Fabric) (i : Fin 8) (b : Nat) (g : BufRec → BufRec) :
    (f.modBuf i b g).nextMerge = f.nextMerge := rfl
@[simp] theorem Fabric.modBuf_nextStamp (f : Fabric) (i : Fin 8) (b : Nat) (g : BufRec → BufRec) :
    (f.modBuf i b g).nextStamp = f.nextStamp := rfl
@[simp] theorem Fabric.modBuf_events (f : Fabric) (i : Fin 8) (b : Nat) (g : BufRec → BufRec) :
    (f.modBuf i b g).events = f.events := rfl

@[simp] theorem Fabric.log_offered (f : Fabric) (env : Env) (k : EventKind) (su p b : Option Nat) (q d : Nat) :
    (f.log env k su p b q d).offered = f.offered := rfl
@[simp] theorem Fabric.log_passQ (f : Fabric) (env : Env) (k : EventKind) (su p b : Option Nat) (q d : Nat) :
    (f.log env k su p b q d).passQ = f.passQ := rfl
@[simp] theorem Fabric.log_scanQ (f : Fabric) (env : Env) (k : EventKind) (su p b : Option Nat) (q d : Nat) :
    (f.log env k su p b q d).scanQ = f.scanQ := rfl
@[simp] theorem Fabric.log_records (f : Fabric) (env : Env) (k : EventKind) (su p b : Option Nat) (q d : Nat) :
    (f.log env k su p b q d).records = f.records := rfl
@[simp] theorem Fabric.log_nextId (f : Fabric) (env : Env) (k : EventKind) (su p b : Option Nat) (q d : Nat) :
    (f.log env k su p b q d).nextId = f.nextId := rfl
@[simp] theorem Fabric.log_sent (f : Fabric) (env : Env) (k : EventKind) (su p b : Option Nat) (q d : Nat) :
    (f.log env k su p b q d).sent = f.sent := rfl
@[simp] theorem Fabric.log_surfaces (f : Fabric) (env : Env) (k : EventKind) (su p b : Option Nat) (q d : Nat) :
    (f.log env k su p b q d).surfaces = f.surfaces := rfl
@[simp] theorem Fabric.log_copy (f : Fabric) (env : Env) (k : EventKind) (su p b : Option Nat) (q d : Nat) :
    (f.log env k su p b q d).copy = f.copy := rfl
@[simp] theorem Fabric.log_nextMerge (f : Fabric) (env : Env) (k : EventKind) (su p b : Option Nat) (q d : Nat) :
    (f.log env k su p b q d).nextMerge = f.nextMerge := rfl
@[simp] theorem Fabric.log_nextStamp (f : Fabric) (env : Env) (k : EventKind) (su p b : Option Nat) (q d : Nat) :
    (f.log env k su p b q d).nextStamp = f.nextStamp := rfl

@[simp] theorem Fabric.logSurf_offered (f : Fabric) (env : Env) (k : EventKind) (i : Fin 8) (b : Option Nat) (q d : Nat) :
    (f.logSurf env k i b q d).offered = f.offered := rfl
@[simp] theorem Fabric.logSurf_passQ (f : Fabric) (env : Env) (k : EventKind) (i : Fin 8) (b : Option Nat) (q d : Nat) :
    (f.logSurf env k i b q d).passQ = f.passQ := rfl
@[simp] theorem Fabric.logSurf_scanQ (f : Fabric) (env : Env) (k : EventKind) (i : Fin 8) (b : Option Nat) (q d : Nat) :
    (f.logSurf env k i b q d).scanQ = f.scanQ := rfl
@[simp] theorem Fabric.logSurf_records (f : Fabric) (env : Env) (k : EventKind) (i : Fin 8) (b : Option Nat) (q d : Nat) :
    (f.logSurf env k i b q d).records = f.records := rfl
@[simp] theorem Fabric.logSurf_nextId (f : Fabric) (env : Env) (k : EventKind) (i : Fin 8) (b : Option Nat) (q d : Nat) :
    (f.logSurf env k i b q d).nextId = f.nextId := rfl
@[simp] theorem Fabric.logSurf_sent (f : Fabric) (env : Env) (k : EventKind) (i : Fin 8) (b : Option Nat) (q d : Nat) :
    (f.logSurf env k i b q d).sent = f.sent := rfl
@[simp] theorem Fabric.logSurf_surfaces (f : Fabric) (env : Env) (k : EventKind) (i : Fin 8) (b : Option Nat) (q d : Nat) :
    (f.logSurf env k i b q d).surfaces = f.surfaces := rfl
@[simp] theorem Fabric.logSurf_copy (f : Fabric) (env : Env) (k : EventKind) (i : Fin 8) (b : Option Nat) (q d : Nat) :
    (f.logSurf env k i b q d).copy = f.copy := rfl
@[simp] theorem Fabric.logSurf_nextMerge (f : Fabric) (env : Env) (k : EventKind) (i : Fin 8) (b : Option Nat) (q d : Nat) :
    (f.logSurf env k i b q d).nextMerge = f.nextMerge := rfl
@[simp] theorem Fabric.logSurf_nextStamp (f : Fabric) (env : Env) (k : EventKind) (i : Fin 8) (b : Option Nat) (q d : Nat) :
    (f.logSurf env k i b q d).nextStamp = f.nextStamp := rfl

@[simp] theorem Fabric.logTag_offered (f : Fabric) (env : Env) (k : EventKind) (e : TagEntry) (t : Fin 32) (q : Nat) :
    (f.logTag env k e t q).offered = f.offered := rfl
@[simp] theorem Fabric.logTag_passQ (f : Fabric) (env : Env) (k : EventKind) (e : TagEntry) (t : Fin 32) (q : Nat) :
    (f.logTag env k e t q).passQ = f.passQ := rfl
@[simp] theorem Fabric.logTag_scanQ (f : Fabric) (env : Env) (k : EventKind) (e : TagEntry) (t : Fin 32) (q : Nat) :
    (f.logTag env k e t q).scanQ = f.scanQ := rfl
@[simp] theorem Fabric.logTag_records (f : Fabric) (env : Env) (k : EventKind) (e : TagEntry) (t : Fin 32) (q : Nat) :
    (f.logTag env k e t q).records = f.records := rfl
@[simp] theorem Fabric.logTag_nextId (f : Fabric) (env : Env) (k : EventKind) (e : TagEntry) (t : Fin 32) (q : Nat) :
    (f.logTag env k e t q).nextId = f.nextId := rfl
@[simp] theorem Fabric.logTag_sent (f : Fabric) (env : Env) (k : EventKind) (e : TagEntry) (t : Fin 32) (q : Nat) :
    (f.logTag env k e t q).sent = f.sent := rfl
@[simp] theorem Fabric.logTag_surfaces (f : Fabric) (env : Env) (k : EventKind) (e : TagEntry) (t : Fin 32) (q : Nat) :
    (f.logTag env k e t q).surfaces = f.surfaces := rfl
@[simp] theorem Fabric.logTag_copy (f : Fabric) (env : Env) (k : EventKind) (e : TagEntry) (t : Fin 32) (q : Nat) :
    (f.logTag env k e t q).copy = f.copy := rfl
@[simp] theorem Fabric.logTag_nextMerge (f : Fabric) (env : Env) (k : EventKind) (e : TagEntry) (t : Fin 32) (q : Nat) :
    (f.logTag env k e t q).nextMerge = f.nextMerge := rfl
@[simp] theorem Fabric.logTag_nextStamp (f : Fabric) (env : Env) (k : EventKind) (e : TagEntry) (t : Fin 32) (q : Nat) :
    (f.logTag env k e t q).nextStamp = f.nextStamp := rfl

@[simp] theorem Fabric.modRecord_offered (f : Fabric) (id : Nat) (g : RespRecord → RespRecord) :
    (f.modRecord id g).offered = f.offered := rfl
@[simp] theorem Fabric.modRecord_passQ (f : Fabric) (id : Nat) (g : RespRecord → RespRecord) :
    (f.modRecord id g).passQ = f.passQ := rfl
@[simp] theorem Fabric.modRecord_scanQ (f : Fabric) (id : Nat) (g : RespRecord → RespRecord) :
    (f.modRecord id g).scanQ = f.scanQ := rfl
@[simp] theorem Fabric.modRecord_nextId (f : Fabric) (id : Nat) (g : RespRecord → RespRecord) :
    (f.modRecord id g).nextId = f.nextId := rfl
@[simp] theorem Fabric.modRecord_sent (f : Fabric) (id : Nat) (g : RespRecord → RespRecord) :
    (f.modRecord id g).sent = f.sent := rfl
@[simp] theorem Fabric.modRecord_surfaces (f : Fabric) (id : Nat) (g : RespRecord → RespRecord) :
    (f.modRecord id g).surfaces = f.surfaces := rfl
@[simp] theorem Fabric.modRecord_copy (f : Fabric) (id : Nat) (g : RespRecord → RespRecord) :
    (f.modRecord id g).copy = f.copy := rfl
@[simp] theorem Fabric.modRecord_nextMerge (f : Fabric) (id : Nat) (g : RespRecord → RespRecord) :
    (f.modRecord id g).nextMerge = f.nextMerge := rfl
@[simp] theorem Fabric.modRecord_nextStamp (f : Fabric) (id : Nat) (g : RespRecord → RespRecord) :
    (f.modRecord id g).nextStamp = f.nextStamp := rfl
@[simp] theorem Fabric.modRecord_events (f : Fabric) (id : Nat) (g : RespRecord → RespRecord) :
    (f.modRecord id g).events = f.events := rfl

@[simp] theorem Fabric.partIssued_offered (f : Fabric) (id : Nat) :
    (f.partIssued id).offered = f.offered := rfl
@[simp] theorem Fabric.partIssued_passQ (f : Fabric) (id : Nat) :
    (f.partIssued id).passQ = f.passQ := rfl
@[simp] theorem Fabric.partIssued_scanQ (f : Fabric) (id : Nat) :
    (f.partIssued id).scanQ = f.scanQ := rfl
@[simp] theorem Fabric.partIssued_nextId (f : Fabric) (id : Nat) :
    (f.partIssued id).nextId = f.nextId := rfl
@[simp] theorem Fabric.partIssued_sent (f : Fabric) (id : Nat) :
    (f.partIssued id).sent = f.sent := rfl
@[simp] theorem Fabric.partIssued_surfaces (f : Fabric) (id : Nat) :
    (f.partIssued id).surfaces = f.surfaces := rfl
@[simp] theorem Fabric.partIssued_copy (f : Fabric) (id : Nat) :
    (f.partIssued id).copy = f.copy := rfl
@[simp] theorem Fabric.partIssued_nextMerge (f : Fabric) (id : Nat) :
    (f.partIssued id).nextMerge = f.nextMerge := rfl
@[simp] theorem Fabric.partIssued_nextStamp (f : Fabric) (id : Nat) :
    (f.partIssued id).nextStamp = f.nextStamp := rfl
@[simp] theorem Fabric.partIssued_events (f : Fabric) (id : Nat) :
    (f.partIssued id).events = f.events := rfl

@[simp] theorem Fabric.send_offered (f : Fabric) (r : UpResponse) :
    (f.send r).offered = f.offered := rfl
@[simp] theorem Fabric.send_passQ (f : Fabric) (r : UpResponse) :
    (f.send r).passQ = f.passQ := rfl
@[simp] theorem Fabric.send_scanQ (f : Fabric) (r : UpResponse) :
    (f.send r).scanQ = f.scanQ := rfl
@[simp] theorem Fabric.send_records (f : Fabric) (r : UpResponse) :
    (f.send r).records = f.records := rfl
@[simp] theorem Fabric.send_nextId (f : Fabric) (r : UpResponse) :
    (f.send r).nextId = f.nextId := rfl
@[simp] theorem Fabric.send_surfaces (f : Fabric) (r : UpResponse) :
    (f.send r).surfaces = f.surfaces := rfl
@[simp] theorem Fabric.send_copy (f : Fabric) (r : UpResponse) :
    (f.send r).copy = f.copy := rfl
@[simp] theorem Fabric.send_nextMerge (f : Fabric) (r : UpResponse) :
    (f.send r).nextMerge = f.nextMerge := rfl
@[simp] theorem Fabric.send_nextStamp (f : Fabric) (r : UpResponse) :
    (f.send r).nextStamp = f.nextStamp := rfl
@[simp] theorem Fabric.send_events (f : Fabric) (r : UpResponse) :
    (f.send r).events = f.events := rfl

@[simp] theorem Fabric.offer_passQ (f : Fabric) (r : UpRequest) :
    (f.offer r).passQ = f.passQ := rfl
@[simp] theorem Fabric.offer_scanQ (f : Fabric) (r : UpRequest) :
    (f.offer r).scanQ = f.scanQ := rfl
@[simp] theorem Fabric.offer_records (f : Fabric) (r : UpRequest) :
    (f.offer r).records = f.records := rfl
@[simp] theorem Fabric.offer_nextId (f : Fabric) (r : UpRequest) :
    (f.offer r).nextId = f.nextId := rfl
@[simp] theorem Fabric.offer_sent (f : Fabric) (r : UpRequest) :
    (f.offer r).sent = f.sent := rfl
@[simp] theorem Fabric.offer_surfaces (f : Fabric) (r : UpRequest) :
    (f.offer r).surfaces = f.surfaces := rfl
@[simp] theorem Fabric.offer_copy (f : Fabric) (r : UpRequest) :
    (f.offer r).copy = f.copy := rfl
@[simp] theorem Fabric.offer_nextMerge (f : Fabric) (r : UpRequest) :
    (f.offer r).nextMerge = f.nextMerge := rfl
@[simp] theorem Fabric.offer_nextStamp (f : Fabric) (r : UpRequest) :
    (f.offer r).nextStamp = f.nextStamp := rfl
@[simp] theorem Fabric.offer_events (f : Fabric) (r : UpRequest) :
    (f.offer r).events = f.events := rfl

/-! ## A surface -/

@[simp] theorem Surface.modBuf_life (su : Surface) (b : Nat) (g : BufRec → BufRec) :
    (su.modBuf b g).life = su.life := rfl
@[simp] theorem Surface.modBuf_desc (su : Surface) (b : Nat) (g : BufRec → BufRec) :
    (su.modBuf b g).desc = su.desc := rfl
@[simp] theorem Surface.modBuf_present (su : Surface) (b : Nat) (g : BufRec → BufRec) :
    (su.modBuf b g).present = su.present := rfl
@[simp] theorem Surface.modBuf_closing (su : Surface) (b : Nat) (g : BufRec → BufRec) :
    (su.modBuf b g).closing = su.closing := rfl
@[simp] theorem Surface.modBuf_frameCounter (su : Surface) (b : Nat) (g : BufRec → BufRec) :
    (su.modBuf b g).frameCounter = su.frameCounter := rfl
@[simp] theorem Surface.modBuf_history (su : Surface) (b : Nat) (g : BufRec → BufRec) :
    (su.modBuf b g).history = su.history := rfl
@[simp] theorem Surface.modBuf_holdWait (su : Surface) (b : Nat) (g : BufRec → BufRec) :
    (su.modBuf b g).holdWait = su.holdWait := rfl
@[simp] theorem Surface.modBuf_holdReached (su : Surface) (b : Nat) (g : BufRec → BufRec) :
    (su.modBuf b g).holdReached = su.holdReached := rfl
@[simp] theorem Surface.modBuf_closePending (su : Surface) (b : Nat) (g : BufRec → BufRec) :
    (su.modBuf b g).closePending = su.closePending := rfl
@[simp] theorem Surface.modBuf_latch (su : Surface) (b : Nat) (g : BufRec → BufRec) :
    (su.modBuf b g).latch = su.latch := rfl
@[simp] theorem Surface.modBuf_slot (su : Surface) (b : Nat) (g : BufRec → BufRec) :
    (su.modBuf b g).slot = su.slot := rfl
@[simp] theorem Surface.modBuf_merges (su : Surface) (b : Nat) (g : BufRec → BufRec) :
    (su.modBuf b g).merges = su.merges := rfl
@[simp] theorem Surface.modBuf_lane (su : Surface) (b : Nat) (g : BufRec → BufRec) :
    (su.modBuf b g).lane = su.lane := rfl
@[simp] theorem Surface.modBuf_head (su : Surface) (b : Nat) (g : BufRec → BufRec) :
    (su.modBuf b g).head = su.head := rfl
@[simp] theorem Surface.modBuf_deferred (su : Surface) (b : Nat) (g : BufRec → BufRec) :
    (su.modBuf b g).deferred = su.deferred := rfl
@[simp] theorem Surface.modBuf_scrollActive (su : Surface) (b : Nat) (g : BufRec → BufRec) :
    (su.modBuf b g).scrollActive = su.scrollActive := rfl
@[simp] theorem Surface.modBuf_scrollPending (su : Surface) (b : Nat) (g : BufRec → BufRec) :
    (su.modBuf b g).scrollPending = su.scrollPending := rfl
@[simp] theorem Surface.modBuf_topActive (su : Surface) (b : Nat) (g : BufRec → BufRec) :
    (su.modBuf b g).topActive = su.topActive := rfl
@[simp] theorem Surface.modBuf_topPending (su : Surface) (b : Nat) (g : BufRec → BufRec) :
    (su.modBuf b g).topPending = su.topPending := rfl
@[simp] theorem Surface.modBuf_bottomActive (su : Surface) (b : Nat) (g : BufRec → BufRec) :
    (su.modBuf b g).bottomActive = su.bottomActive := rfl
@[simp] theorem Surface.modBuf_bottomPending (su : Surface) (b : Nat) (g : BufRec → BufRec) :
    (su.modBuf b g).bottomPending = su.bottomPending := rfl

end Sys2Proof.Machine
end

