-- ==== Sys2Proof/Laws/Ops.lean ====
section
/-! SUPPORT. The shared operations: for each, what it can do, said once. -/

namespace Sys2Proof.Machine

/-! ## Stripe sets -/

@[simp] theorem mem_addStripe {x k : Nat} {s : StripeSet} : x ∈ addStripe k s ↔ x = k ∨ x ∈ s := by
  induction s with
  | nil => simp [addStripe]
  | cons y ys ih =>
    unfold addStripe
    split
    · simp
    · split
      · rename_i h; subst h; simp
      · simp only [List.mem_cons, ih]; tauto

@[simp] theorem mem_addStripes {x : Nat} {ks : List Nat} {s : StripeSet} : x ∈ addStripes ks s ↔ x ∈ ks ∨ x ∈ s := by
  induction ks with
  | nil => simp [addStripes]
  | cons k ks ih =>
    have : addStripes (k :: ks) s = addStripe k (addStripes ks s) := rfl
    rw [this, mem_addStripe, ih, List.mem_cons, or_assoc]

/-- A stripe set stays strictly rising. -/
theorem addStripe_rising {k : Nat} {s : StripeSet} (h : s.Pairwise (· < ·)) : (addStripe k s).Pairwise (· < ·) := by
  induction s with
  | nil => simp [addStripe]
  | cons y ys ih =>
    obtain ⟨hy, hs⟩ := List.pairwise_cons.mp h
    unfold addStripe
    split
    · rename_i hk
      exact List.pairwise_cons.mpr ⟨by simpa [hk] using fun a ha => Nat.lt_trans hk (hy a ha), h⟩
    · split
      · exact h
      · rename_i h1 h2
        refine List.pairwise_cons.mpr ⟨fun a ha => ?_, ih hs⟩
        rcases mem_addStripe.mp ha with rfl | ha
        · omega
        · exact hy a ha

/-! ## The order that a free value picks (log 4) -/

/-- Whatever the number, every element stands in the order once. -/
theorem pickOrder_perm {α : Type} (fuel n : Nat) (l : List α) : (pickOrder fuel n l).Perm l := by
  induction fuel generalizing n l with
  | zero => exact List.Perm.refl l
  | succ fuel ih =>
    match l with
    | [] => exact List.Perm.refl _
    | [x] => exact List.Perm.refl _
    | x :: y :: zs =>
      have hlt : n % (x :: y :: zs).length < (x :: y :: zs).length := Nat.mod_lt _ (by simp)
      have e : pickOrder (fuel + 1) n (x :: y :: zs) =
          (x :: y :: zs)[n % (x :: y :: zs).length] ::
            pickOrder fuel (n / (x :: y :: zs).length) ((x :: y :: zs).eraseIdx (n % (x :: y :: zs).length)) := by
        rw [pickOrder]
        · rw [List.getElem?_eq_getElem hlt]
        all_goals simp
      rw [e]
      exact ((ih _ _).cons _).trans (List.getElem_cons_eraseIdx_perm hlt)

/-! ## The event queue (R190) -/

@[simp] theorem countLost_length (q : List EventRecord) : (countLost q).length = q.length := by
  induction q with
  | nil => rfl
  | cons r rs ih => unfold countLost; split <;> simp [ih]

/-- Counting a lost record changes no kind. -/
@[simp] theorem countLost_kinds (q : List EventRecord) : (countLost q).map EventRecord.kind = q.map EventRecord.kind := by
  induction q with
  | nil => rfl
  | cons r rs ih =>
    unfold countLost
    split
    · split <;> simp
    · simp [ih]

/-- What an arriving record does to the queue. -/
theorem appendEvent_cases (q : List EventRecord) (r : EventRecord) :
    (q.length < 31 ∨ q.length = 31 ∧ holdsOverflow q = true) ∧ appendEvent q r = q ++ [r] ∨
    (q.length = 31 ∧ holdsOverflow q = false) ∧ appendEvent q r = q ++ [overflowRecord r.stamp] ∨
    31 < q.length ∧ appendEvent q r = countLost q := by
  unfold appendEvent
  by_cases h : q.length < 31
  · exact Or.inl ⟨Or.inl h, if_pos h⟩
  · rw [if_neg h]
    by_cases h' : q.length = 31
    · rw [if_pos h']
      cases ho : holdsOverflow q
      · exact Or.inr (Or.inl ⟨⟨h', rfl⟩, by simp⟩)
      · exact Or.inl ⟨Or.inr ⟨h', rfl⟩, by simp⟩
    · rw [if_neg h']
      exact Or.inr (Or.inr ⟨by omega, rfl⟩)

/-- With room for it, a record is stored. -/
theorem appendEvent_of_room {q : List EventRecord} (h : q.length < 31) (r : EventRecord) : appendEvent q r = q ++ [r] :=
  if_pos h

/-! ## Buffer records -/

@[simp] theorem Surface.bufs_modBuf (su : Surface) (b k : Nat) (g : BufRec → BufRec) :
    (su.modBuf b g).bufs[k]? = if b = k then su.bufs[k]?.map g else su.bufs[k]? := by
  unfold Surface.modBuf
  rw [List.getElem?_modify]
  split <;> simp [*]

@[simp] theorem Surface.length_modBuf (su : Surface) (b : Nat) (g : BufRec → BufRec) :
    (su.modBuf b g).bufs.length = su.bufs.length := List.length_modify ..

theorem Surface.buf_of_some {su : Surface} {b : Nat} {r : BufRec} (h : su.bufs[b]? = some r) : su.buf b = r := by
  simp [Surface.buf, List.getD_eq_getElem?_getD, h]

theorem Surface.filling_some {su : Surface} {b : Nat} (h : su.filling = some b) :
    ∃ r, su.bufs[b]? = some r ∧ r.st = .filling := by
  obtain ⟨hb, hr, -⟩ := List.findIdx?_eq_some_iff_getElem.mp h
  exact ⟨su.bufs[b], List.getElem?_eq_getElem hb, by simpa using hr⟩

theorem Surface.filling_none {su : Surface} : su.filling = none ↔ ∀ r ∈ su.bufs, r.st ≠ .filling := by
  simp [Surface.filling, List.findIdx?_eq_none_iff]

theorem Surface.shown_some {su : Surface} {b : Nat} (h : su.shown = some b) :
    ∃ r, su.bufs[b]? = some r ∧ r.st = .shown := by
  obtain ⟨hb, hr, -⟩ := List.findIdx?_eq_some_iff_getElem.mp h
  exact ⟨su.bufs[b], List.getElem?_eq_getElem hb, by simpa using hr⟩

theorem Surface.shown_none {su : Surface} : su.shown = none ↔ ∀ r ∈ su.bufs, r.st ≠ .shown := by
  simp [Surface.shown, List.findIdx?_eq_none_iff]

@[simp] theorem Surface.mem_bufsIn {su : Surface} {st : BufState} {b : Nat} :
    b ∈ su.bufsIn st ↔ ∃ r, su.bufs[b]? = some r ∧ r.st = st := by
  simp only [Surface.bufsIn, List.mem_filter, List.mem_range, decide_eq_true_eq]
  constructor
  · rintro ⟨hb, hs⟩
    exact ⟨su.bufs[b], List.getElem?_eq_getElem hb, by rwa [Surface.buf_of_some (List.getElem?_eq_getElem hb)] at hs⟩
  · rintro ⟨r, hr, hs⟩
    exact ⟨(List.getElem?_eq_some_iff.mp hr).1, by rwa [Surface.buf_of_some hr]⟩

/-- Leaving use and the release test change a record's state alone, and only to FREE or DRAINING. -/
theorem BufRec.leaveUse_cases (r : BufRec) :
    r.leaveUse = { r with st := .free } ∧ r.countsZero = true ∧ r.hold = false ∨
      r.leaveUse = { r with st := .draining } ∧ ¬ (r.countsZero = true ∧ r.hold = false) := by
  unfold BufRec.leaveUse
  cases r.countsZero <;> cases r.hold <;> simp

theorem BufRec.release_cases (r : BufRec) :
    r.release = { r with st := .free } ∧ r.st = .draining ∧ r.countsZero = true ∧ r.hold = false ∨
      r.release = r ∧ ¬ (r.st = .draining ∧ r.countsZero = true ∧ r.hold = false) := by
  unfold BufRec.release
  split
  · exact Or.inl ⟨rfl, ‹_›⟩
  · exact Or.inr ⟨rfl, ‹_›⟩

/-- R90: the buffer chosen is FREE. -/
theorem Surface.newestOf_mem (su : Surface) {l : List Nat} {b : Nat} (h : su.newestOf l = some b) : b ∈ l := by
  induction l generalizing b with
  | nil => simp [Surface.newestOf] at h
  | cons x xs ih =>
    unfold Surface.newestOf at h
    split at h
    · simp_all
    · rename_i k hk
      split at h
      · simp_all
      · exact List.mem_cons_of_mem _ (ih (by rw [hk]; exact h))

theorem Surface.chooseFree_some {su : Surface} {b : Nat} (h : su.chooseFree = some b) :
    ∃ r, su.bufs[b]? = some r ∧ r.st = .free := by
  rw [← Surface.mem_bufsIn]
  simp only [Surface.chooseFree, Option.or_eq_some_iff] at h
  rcases h with (h | ⟨-, h⟩) | ⟨-, h⟩
  · exact List.mem_of_find?_eq_some h
  · exact List.mem_of_mem_filter (su.newestOf_mem h)
  · exact List.mem_of_head? h

theorem Surface.chooseFree_none {su : Surface} : su.chooseFree = none ↔ ∀ r ∈ su.bufs, r.st ≠ .free := by
  have hb : su.bufsIn .free = [] ↔ ∀ r ∈ su.bufs, r.st ≠ .free := by
    rw [List.eq_nil_iff_forall_not_mem]
    simp only [Surface.mem_bufsIn, not_exists, not_and]
    constructor
    · intro h r hr
      obtain ⟨k, hk⟩ := List.mem_iff_getElem?.mp hr
      exact h k r hk
    · intro h k r hr
      exact h r (List.mem_of_getElem? hr)
  rw [← hb]
  constructor
  · intro h
    simp only [Surface.chooseFree, Option.or_eq_none_iff, List.head?_eq_none_iff] at h
    exact h.2
  · intro h
    simp [Surface.chooseFree, h, Surface.newestOf]

/-- R89: a head is bound exactly when its phase says so. -/
theorem Surface.headBound_iff {su : Surface} : su.headBound = true ↔ ∃ bd, su.head = .bound bd := by
  unfold Surface.headBound
  cases su.head <;> simp

/-! ## Response records (R17, R18) -/

/-- The test for a complete record: the record closes and its answer leaves, or nothing changes. -/
theorem Fabric.closeIfDone_cases (f : Fabric) (id : Nat) :
    (∃ r, f.records.find? (fun r => r.id == id) = some r ∧ r.issued = 0 ∧ r.mark = true ∧
      f.closeIfDone id =
        { f with records := f.records.filter (fun q => q.id != id), sent := f.sent ++ [r.answer] }) ∨
    f.closeIfDone id = f := by
  unfold Fabric.closeIfDone
  split
  · rename_i r hr
    split
    · rename_i h; exact Or.inl ⟨r, hr, h.1, h.2, rfl⟩
    · exact Or.inr rfl
  · exact Or.inr rfl

/-- An answer with a code of its own: the record closes, or there is none. -/
theorem Fabric.answerNow_cases (f : Fabric) (id : Nat) (code : UpCode) :
    (∃ r, f.records.find? (fun r => r.id == id) = some r ∧
      f.answerNow id code =
        { f with records := f.records.filter (fun q => q.id != id),
                 sent := f.sent ++ [{ tag := r.tag, code := code, data := [] }] }) ∨
    f.answerNow id code = f := by
  unfold Fabric.answerNow
  split
  · rename_i r hr; exact Or.inl ⟨r, hr, rfl⟩
  · exact Or.inr rfl

/-- The operations on response records change the records and the responses sent, and nothing else. -/
theorem Fabric.closeIfDone_rest (f : Fabric) (id : Nat) :
    f.closeIfDone id = { f with records := (f.closeIfDone id).records, sent := (f.closeIfDone id).sent } := by
  rcases f.closeIfDone_cases id with ⟨r, -, -, -, h⟩ | h <;> rw [h]

theorem Fabric.answerNow_rest (f : Fabric) (id : Nat) (code : UpCode) :
    f.answerNow id code = { f with records := (f.answerNow id code).records, sent := (f.answerNow id code).sent } := by
  rcases f.answerNow_cases id code with ⟨r, -, h⟩ | h <;> rw [h]

theorem Fabric.markDone_rest (f : Fabric) (id : Nat) :
    f.markDone id = { f with records := (f.markDone id).records, sent := (f.markDone id).sent } :=
  Fabric.closeIfDone_rest _ id

theorem Fabric.dropRest_rest (f : Fabric) (id : Nat) :
    f.dropRest id = { f with records := (f.dropRest id).records, sent := (f.dropRest id).sent } :=
  Fabric.closeIfDone_rest _ id

theorem Fabric.partEnded_rest (f : Fabric) (id : Nat) (res : Worst) (g : List Byte → List Byte) :
    f.partEnded id res g = { f with records := (f.partEnded id res g).records, sent := (f.partEnded id res g).sent } :=
  Fabric.closeIfDone_rest _ id

/-- R18: the worst result never becomes better. -/
theorem Worst.rank_join (a b : Worst) : (a.join b).rank = max a.rank b.rank := by
  cases a <;> cases b <;> rfl

/-! ## Tables (R61, R62) -/

/-- A table after a load: the values in the entries from the first index on, every other entry kept. -/
theorem loadTable_get {α : Type} {n : Nat} (t : Vector α n) (first : Nat) (vals : List α) (k : Fin n) :
    (loadTable t first vals).get k =
      if first ≤ k.val then (vals[k.val - first]?).getD (t.get k) else t.get k := by
  simp only [loadTable, vectorGet, Vector.getElem_ofFn]

/-! ## Claims (R157) -/

/-- The earliest claim of a list. -/
theorem earliest_some {l : List (Nat × Claim)} {c : Nat × Claim} (h : earliest l = some c) :
    c ∈ l ∧ ∀ x ∈ l, c.1 ≤ x.1 := by
  induction l generalizing c with
  | nil => simp [earliest] at h
  | cons x xs ih =>
    unfold earliest at h
    split at h
    · rename_i hn
      obtain rfl : x = c := by simpa using h
      refine ⟨by simp, fun y hy => ?_⟩
      rcases List.mem_cons.mp hy with rfl | hy
      · exact Nat.le_refl _
      · cases xs with
        | nil => cases hy
        | cons z zs =>
          exfalso
          unfold earliest at hn
          split at hn
          · cases hn
          · split at hn <;> cases hn
    · rename_i k hk
      obtain ⟨hm, hle⟩ := ih hk
      split at h <;> (obtain rfl := Option.some.inj h) <;> refine ⟨by simp [hm], fun y hy => ?_⟩ <;>
        rcases List.mem_cons.mp hy with rfl | hy
      · exact Nat.le_refl _
      · exact Nat.le_trans ‹_› (hle y hy)
      · omega
      · exact hle y hy

/-- Some claim is the earliest, unless there is none. -/
theorem earliest_none {l : List (Nat × Claim)} : earliest l = none ↔ l = [] := by
  cases l with
  | nil => simp [earliest]
  | cons x xs =>
    unfold earliest
    split
    · simp
    · split <;> simp

/-- The lowest FREE tag is FREE, and no lower tag is. -/
theorem State.lowestFree_some {s : State} {k : Fin 32} (h : s.lowestFree = some k) :
    (s.tag k).st = .free ∧ ∀ j, j < k → (s.tag j).st ≠ .free := by
  have hk : (s.tag k).st = .free := by
    simpa [TagEntry.isFree] using List.find?_some h
  refine ⟨hk, fun j hj hf => ?_⟩
  unfold State.lowestFree allTags at h
  rw [List.find?_eq_some_iff_getElem] at h
  obtain ⟨-, i, hi, he, hlt⟩ := h
  have hik : i = k.val := by rw [← he]; simp
  have := hlt j.val (by omega)
  simp [TagEntry.isFree, hf] at this

end Sys2Proof.Machine
end

