-- ==== Sys2Proof/Laws/Copy.lean ====
section
/-! SUPPORT. The copy set of an open (R133) as the model computes it. -/

namespace Sys2Proof.Machine

/-- A union of stripe sets made from nothing holds each stripe once, rising. -/
theorem addStripes_rising {ks : List Nat} {l : StripeSet} (h : l.Pairwise (· < ·)) : (addStripes ks l).Pairwise (· < ·) := by
  induction ks with
  | nil => exact h
  | cons k ks ih => exact addStripe_rising ih

/-- The stripes of a list of history entries, joined. -/
theorem mem_foldr_addStripes {x : Nat} {l : List HistoryEntry} :
    x ∈ l.foldr (fun e acc => addStripes e.stripes acc) [] ↔ ∃ e ∈ l, x ∈ e.stripes := by
  induction l with
  | nil => simp
  | cons e es ih => simp [ih]

/-- The model's copy set is the one that R133 gives. -/
theorem Surface.mem_copySet {su : Surface} {b x : Nat} : x ∈ su.copySet b ↔ su.Copies b x := by
  have key : su.history.any (fun e => e.seq == (su.buf b).content) = true ↔ ∃ e ∈ su.history, e.seq = (su.buf b).content := by
    simp
  unfold Surface.copySet Surface.Copies
  dsimp only
  split
  · rename_i h
    have off : su.desc.flags.getLsbD 2 = false := h
    exact ⟨fun hx => absurd hx List.not_mem_nil, fun hx => absurd hx.1 (by rw [off]; decide)⟩
  split
  · rename_i h; simp [h]
  split
  · rename_i h; simp [h]
  rename_i h1 h2 h3
  have hc : su.desc.flags.getLsbD 2 = true := by simpa [Descriptor.carryForward] using h1
  simp only [hc, h2, h3, ne_eq, not_false_eq_true, true_and]
  split
  · rename_i h4
    obtain ⟨e, he, hs⟩ := key.mp h4
    rw [mem_foldr_addStripes]
    constructor
    · rintro ⟨y, hy, hx⟩
      obtain ⟨hm, hl⟩ := List.mem_filter.mp hy
      exact ⟨fun _ => ⟨y, hm, by simpa using hl, hx⟩, fun h => absurd hs (h e he)⟩
    · rintro ⟨h, -⟩
      obtain ⟨y, hm, hl, hx⟩ := h ⟨e, he, hs⟩
      exact ⟨y, List.mem_filter.mpr ⟨hm, by simpa using hl⟩, hx⟩
  · rename_i h4
    have none : ∀ e ∈ su.history, e.seq ≠ (su.buf b).content := fun e he hs => h4 (key.mpr ⟨e, he, hs⟩)
    rw [List.mem_range]
    exact ⟨fun h => ⟨fun ⟨e, he, hs⟩ => absurd hs (none e he), fun _ => h⟩, fun h => h.2 none⟩

/-- The copy set holds each stripe once, rising. -/
theorem Surface.copySet_rising (su : Surface) (b : Nat) : (su.copySet b).Pairwise (· < ·) := by
  have fold : ∀ l : List HistoryEntry, (l.foldr (fun e acc => addStripes e.stripes acc) []).Pairwise (· < ·) := by
    intro l
    induction l with
    | nil => exact .nil
    | cons e es ih => exact addStripes_rising ih
  unfold Surface.copySet
  dsimp only
  split; · exact .nil
  split; · exact .nil
  split; · exact .nil
  split
  · exact fold _
  · exact List.pairwise_lt_range

end Sys2Proof.Machine
end

