-- ==== Sys2Proof/Laws/Link.lean ====
section
/-! SUPPORT. The control link: what a message does once the link takes it, and the tests on its way (R25, R176, R180),
and what the bits on CDI and CDO come to (R169, R175). -/

namespace Sys2Proof.Machine

/-! ## Sums and codes -/

theorem byteSum_append (a b : List Byte) : byteSum (a ++ b) = byteSum a + byteSum b := by
  induction a with
  | nil => simp [byteSum]
  | cons x xs ih =>
    simp only [byteSum, List.cons_append, List.foldr_cons] at ih ⊢
    rw [ih, BitVec.add_assoc]

/-- A check byte makes the sum 0 (R170, R177). -/
@[simp] theorem byteSum_check (l : List Byte) : byteSum (l ++ [checkByte l]) = 0 := by
  rw [byteSum_append]
  simp only [checkByte, byteSum, List.foldr_cons, List.foldr_nil]
  generalize List.foldr (fun a b : Byte => a + b) 0 l = x
  bv_omega

/-- The code of a command names it (R179). -/
@[simp] theorem commandOf_code (c : Command) : commandOf c.code = some c := by cases c <;> decide

/-! ## Messages -/

/-- A message that the link takes is answered with what its command does. -/
theorem State.message_of_takes (s : State) {code : Byte} {params : List Byte} (h : s.Takes code params)
    (run : State → Applied) : s.message code params run = State.answer (run s) := if_pos h

/-- A command's message that the link takes. -/
theorem State.command_of_takes (s : State) {c : Command} {params : List Byte} (h : s.Takes c.code params) :
    s.command c params = State.answer (runCommand c params s) := State.message_of_takes s h _

/-- Every message row is its command's message. -/
theorem exec_row (c : Command) (params : List Byte) (s : State) :
    exec (c.row params) s = .next (s.command c params) := by
  cases c <;> try rfl
  simp only [Command.row]
  split <;> rfl

/-- A command that passes the link interface's tests goes to its owner. -/
theorem runCommand_apply {c : Command} {params : List Byte} {s : State} (hl : c.lengthFits params = true)
    (hd : s.device = .running) : runCommand c params s = c.apply params s := by
  simp [runCommand, hl, hd]

/-- A message of a fitting length in RUNNING. -/
theorem exec_row_running {c : Command} {params : List Byte} {s : State} (h : s.Takes c.code params)
    (hl : c.lengthFits params = true) (hd : s.device = .running) :
    exec (c.row params) s = .next (State.answer (c.apply params s)) := by
  rw [exec_row, State.command_of_takes s h, runCommand_apply hl hd]

/-- A command that fails a test is a reply and nothing else. -/
@[simp] theorem State.answer_failed (s : State) (st : Status) : State.answer (s.failed st) = s.replied st [] := rfl

@[simp] theorem State.answer_okWith (s : State) (data : List Byte) : State.answer (s.okWith data) = s.replied .ok data := rfl

@[simp] theorem State.answer_done (s : State) : State.answer s.done = s.replied .ok [] := rfl

/-! ## The surface number and the lifecycle test (R25) -/

theorem surfaceNumber_of_eq {params : List Byte} {i : Fin 8} (h : (byteAt params 0).toNat = i.val) :
    surfaceNumber params = some i := by
  unfold surfaceNumber
  rw [dif_pos (by rw [h]; exact i.isLt)]
  congr 1
  exact Fin.ext h

theorem surfaceNumber_of_gt {params : List Byte} (h : 7 < (byteAt params 0).toNat) : surfaceNumber params = none := by
  unfold surfaceNumber
  rw [dif_neg (by omega)]

@[simp] theorem State.named_of_eq (s : State) {params : List Byte} {i : Fin 8} (h : (byteAt params 0).toNat = i.val)
    (g : Fin 8 → Applied) : s.named params g = g i := by
  simp [State.named, surfaceNumber_of_eq h]

theorem State.named_of_gt (s : State) {params : List Byte} (h : 7 < (byteAt params 0).toNat) (g : Fin 8 → Applied) :
    s.named params g = s.failed .badValue := by
  simp [State.named, surfaceNumber_of_gt h]

theorem State.onAttached_of_eq (s : State) {params : List Byte} {i : Fin 8} (h : (byteAt params 0).toNat = i.val)
    (hl : (s.surf i).life = .attached) (g : Fin 8 → Applied) : s.onAttached params g = g i := by
  simp [State.onAttached, State.named_of_eq s h, hl]

theorem State.onAttached_of_not (s : State) {params : List Byte} {i : Fin 8} (h : (byteAt params 0).toNat = i.val)
    (hl : (s.surf i).life ≠ .attached) (g : Fin 8 → Applied) : s.onAttached params g = s.failed .badState := by
  simp [State.onAttached, State.named_of_eq s h, hl]

/-! ## Bits on the link (R169, R175) -/

theorem Link.not_responding_of_samples {l : Link} (h : l.samples = true) : l.state ≠ .responding := by
  intro hr
  simp [Link.samples, hr] at h

/-- A link that samples nothing and is not in RESPONDING ignores a byte on CDI. -/
theorem State.clockByte_of_not_samples (s : State) (b : Byte) (h : s.link.samples = false)
    (hr : s.link.state ≠ .responding) : s.clockByte b = s := by
  unfold State.clockByte
  induction bitsOf b with
  | nil => rfl
  | cons x xs ih =>
    have : s.clock x = s := by simp [State.clock, State.sampleBit, h, hr]
    rw [List.foldl_cons, this, ih]

/-- Bits sampled that do not make a byte whole are counted and held. -/
theorem State.clocks_of_few (s : State) (bits : List Bool) (h : s.link.samples = true)
    (hn : s.link.bitCount.toNat + bits.length < 8) (h0 : bits ≠ []) :
    bits.foldl State.clock s = s.onLink (fun l => { l with
      bitCount := l.bitCount + BitVec.ofNat 3 bits.length, shift := bits.foldl shiftIn l.shift, cselHigh := false }) := by
  induction bits generalizing s with
  | nil => exact absurd rfl h0
  | cons x xs ih =>
    have h7 : s.link.bitCount ≠ 7 := by
      intro e
      rw [e, List.length_cons] at hn
      have : (7 : BitVec 3).toNat = 7 := rfl
      omega
    have h1 : s.clock x = s.onLink (fun l => { l with
        bitCount := l.bitCount + 1, shift := shiftIn l.shift x, cselHigh := false }) := by
      unfold State.clock
      rw [if_neg (Link.not_responding_of_samples h), State.sampleBit, if_pos h, if_neg h7]
    rw [List.foldl_cons, h1]
    cases xs with
    | nil => rfl
    | cons y ys =>
      rw [ih _ (by simpa [Link.samples] using h) ?_ (by simp)]
      · simp only [State.onLink, List.foldl_cons, List.length_cons]
        congr 2
        rw [BitVec.add_assoc]
        congr 1
        bv_omega
      · simp only [State.onLink_link, List.length_cons] at hn ⊢
        have := BitVec.toNat_add s.link.bitCount 1
        simp at this ⊢
        omega

/-- The eight bits of a byte, most significant first, put together again. -/
theorem shiftIn_bitsOf (held b : Byte) : (bitsOf b).foldl shiftIn held = b := by
  simp only [bitsOf, List.range, List.range.loop, List.map, List.foldl, shiftIn]
  apply BitVec.eq_of_getLsbD_eq
  intro i hi
  have : i = 0 ∨ i = 1 ∨ i = 2 ∨ i = 3 ∨ i = 4 ∨ i = 5 ∨ i = 6 ∨ i = 7 := by omega
  rcases this with rfl | rfl | rfl | rfl | rfl | rfl | rfl | rfl <;> simp [BitVec.getMsbD]

/-- Eight bits sampled between bytes are a whole byte taken. -/
theorem State.clockByte_of_samples (s : State) (b : Byte) (h : s.link.samples = true) (hb : s.link.bitCount = 0) :
    s.clockByte b =
      (s.onLink (fun l => { l with bitCount := 0, shift := 0, cselHigh := false })).takeByte b := by
  have key := shiftIn_bitsOf s.link.shift b
  have e : bitsOf b = (bitsOf b).take 7 ++ [b.getMsbD 7] := rfl
  rw [e, List.foldl_append] at key
  unfold State.clockByte
  rw [e, List.foldl_append, State.clocks_of_few s _ h (by rw [hb]; simp [bitsOf]) (by simp [bitsOf])]
  simp only [List.foldl_cons, List.foldl_nil] at key ⊢
  unfold State.clock
  rw [if_neg (by simpa using Link.not_responding_of_samples h), State.sampleBit, if_pos (by simpa [Link.samples] using h)]
  rw [if_pos (by rw [State.onLink_link, hb]; rfl), State.onLink_link, key]
  rfl

/-- Clocks in RESPONDING while the response has bits left each present one. -/
theorem State.presentBits_of_left (n : Nat) (s : State) (h : s.link.state = .responding)
    (hn : s.link.respPos + n < 8 * s.link.response.length) :
    State.presentBits n s = s.onLink (fun l => { l with respPos := l.respPos + n }) := by
  induction n generalizing s with
  | zero => rfl
  | succ n ih =>
    have h1 : s.presentBit = s.onLink (fun l => { l with respPos := l.respPos + 1 }) := by
      rw [State.presentBit, if_pos h, if_pos (by omega)]
    rw [State.presentBits, h1, ih _ (by simpa using h) (by simp; omega)]
    simp only [State.onLink, Nat.add_assoc, Nat.add_comm 1 n]

theorem State.presentBits_add (m n : Nat) (s : State) :
    State.presentBits (m + n) s = State.presentBits n (State.presentBits m s) := by
  induction m generalizing s with
  | zero => simp [State.presentBits]
  | succ m ih => rw [Nat.succ_add, State.presentBits, ih, State.presentBits]

/-- The bits left all clocked out: the response has left whole. -/
theorem State.clockOut_of_left (s : State) (h : s.link.state = .responding)
    (hn : s.link.respPos < 8 * s.link.response.length) :
    s.clockOut = s.present (8 * s.link.response.length) false := by
  obtain ⟨k, hk⟩ : ∃ k, 8 * s.link.response.length - s.link.respPos = k + 1 := ⟨_, (Nat.sub_add_cancel (by omega)).symm⟩
  rw [State.clockOut, hk, State.presentBits_add, State.presentBits_of_left k s h (by omega)]
  simp only [State.presentBits, State.presentBit, State.onLink_link, h, if_true]
  rw [if_neg (by omega)]
  rfl

end Sys2Proof.Machine
end

