-- ==== Sys2Proof/Laws/PerInstr.lean ====
section
/-! SUPPORT. The family `Bounded` of statements about the commands as syntax: a well-formed message row carries at most 80
parameter bytes (R170). -/

namespace Sys2Proof

/-- The parameter bytes that a row carries as a message; none for a row that is no message. -/
def Instr.params : Instr → List Byte
  | .ident p | .status p | .defineSurface p | .readSurface p | .attach p | .detach p | .erase p | .setOrient p
  | .setWindow p | .setScroll p | .setVisible p | .setPolicy p | .close p | .discardFilling p | .discardReady p
  | .bindPipe p | .loadExpand p | .loadPalette p | .setTimeout p | .readEvents p | .setAttention p | .reset p => p
  | .unknownCodeMessage _ p => p
  | .badCheckMessage _ p _ => p
  | .upstreamRequest _ | .grant | .downstreamResponse _ _ _ | .tagTimeout _ | .boundary _ _ | .holdLimitExpiry _
  | .lengthAbove80 _ _ | .linkPause | .linkResume | .linkHoldLimit | .breakLink _ | .cut _ | .hardReset _
  | .messageByteTaken _ | .responseClockedOut | .cselReleasedIdle => []

/-- Parameters that fit are at most 80 bytes. -/
theorem paramsFit_length {p : List Byte} (h : paramsFit p = true) : p.length ≤ 80 := by simpa [paramsFit] using h

end Sys2Proof

namespace Sys2Proof.Laws.Bounded

open Sys2Proof Sys2Proof.Machine

/-- A well-formed command carries at most 80 parameter bytes. -/
def Statement (i : Instr) : Prop := i.wellFormed = true → i.params.length ≤ 80

theorem upstreamRequest (r : UpRequest) : Statement (.upstreamRequest r) := fun _ => Nat.zero_le _
theorem grant : Statement .grant := fun _ => Nat.zero_le _
theorem downstreamResponse (t : Fin 32) (c : DownCode) (d : List Byte) : Statement (.downstreamResponse t c d) := fun _ => Nat.zero_le _
theorem tagTimeout (t : Fin 32) : Statement (.tagTimeout t) := fun _ => Nat.zero_le _
theorem boundary (p : Fin 4) (b : Option Between) : Statement (.boundary p b) := fun _ => Nat.zero_le _
theorem holdLimitExpiry (i : Fin 8) : Statement (.holdLimitExpiry i) := fun _ => Nat.zero_le _
theorem ident (p : List Byte) : Statement (.ident p) := fun h => paramsFit_length h
theorem status (p : List Byte) : Statement (.status p) := fun h => paramsFit_length h
theorem defineSurface (p : List Byte) : Statement (.defineSurface p) := fun h => paramsFit_length h
theorem readSurface (p : List Byte) : Statement (.readSurface p) := fun h => paramsFit_length h
theorem attach (p : List Byte) : Statement (.attach p) := fun h => paramsFit_length h
theorem detach (p : List Byte) : Statement (.detach p) := fun h => paramsFit_length h
theorem erase (p : List Byte) : Statement (.erase p) := fun h => paramsFit_length h
theorem setOrient (p : List Byte) : Statement (.setOrient p) := fun h => paramsFit_length h
theorem setWindow (p : List Byte) : Statement (.setWindow p) := fun h => paramsFit_length h
theorem setScroll (p : List Byte) : Statement (.setScroll p) := fun h => paramsFit_length h
theorem setVisible (p : List Byte) : Statement (.setVisible p) := fun h => paramsFit_length h
theorem setPolicy (p : List Byte) : Statement (.setPolicy p) := fun h => paramsFit_length h
theorem close (p : List Byte) : Statement (.close p) := fun h => paramsFit_length h
theorem discardFilling (p : List Byte) : Statement (.discardFilling p) := fun h => paramsFit_length ((Bool.and_eq_true _ _).mp h).1
theorem discardReady (p : List Byte) : Statement (.discardReady p) := fun h => by
  have h' : p.length = 2 ∧ byteAt p 1 = 1 := by simpa [Instr.wellFormed, choosesReady] using h
  simp [Instr.params, h'.1]
theorem bindPipe (p : List Byte) : Statement (.bindPipe p) := fun h => paramsFit_length h
theorem loadExpand (p : List Byte) : Statement (.loadExpand p) := fun h => paramsFit_length h
theorem loadPalette (p : List Byte) : Statement (.loadPalette p) := fun h => paramsFit_length h
theorem setTimeout (p : List Byte) : Statement (.setTimeout p) := fun h => paramsFit_length h
theorem readEvents (p : List Byte) : Statement (.readEvents p) := fun h => paramsFit_length h
theorem setAttention (p : List Byte) : Statement (.setAttention p) := fun h => paramsFit_length h
theorem reset (p : List Byte) : Statement (.reset p) := fun h => paramsFit_length h
theorem unknownCodeMessage (c : Byte) (p : List Byte) : Statement (.unknownCodeMessage c p) := fun h => paramsFit_length ((Bool.and_eq_true _ _).mp h).1
theorem lengthAbove80 (c n : Byte) : Statement (.lengthAbove80 c n) := fun _ => Nat.zero_le _
theorem linkPause : Statement .linkPause := fun _ => Nat.zero_le _
theorem linkResume : Statement .linkResume := fun _ => Nat.zero_le _
theorem linkHoldLimit : Statement .linkHoldLimit := fun _ => Nat.zero_le _
theorem breakLink (b : List Bool) : Statement (.breakLink b) := fun _ => Nat.zero_le _
theorem cut (n : Nat) : Statement (.cut n) := fun _ => Nat.zero_le _
theorem hardReset (b : Bool) : Statement (.hardReset b) := fun _ => Nat.zero_le _
theorem messageByteTaken (b : Byte) : Statement (.messageByteTaken b) := fun _ => Nat.zero_le _
theorem badCheckMessage (c : Byte) (p : List Byte) (k : Byte) : Statement (.badCheckMessage c p k) := fun h => paramsFit_length ((Bool.and_eq_true _ _).mp h).1
theorem responseClockedOut : Statement .responseClockedOut := fun _ => Nat.zero_le _
theorem cselReleasedIdle : Statement .cselReleasedIdle := fun _ => Nat.zero_le _

end Sys2Proof.Laws.Bounded
end

