-- ==== Sys2Proof/Laws/Rest.lean ====
section
/-! SUPPORT. A fabric at rest stays as it is: what `finish` does when nothing is left to do (log 1). -/

namespace Sys2Proof.Machine

theorem Fabric.stepHead_of_headRests (f : Fabric) (env : Env) (i : Fin 8) (q : LaneReq) (h : f.headRests i = true) :
    f.stepHead env i q = f := by
  unfold Fabric.headRests at h
  unfold Fabric.stepHead
  cases hh : (f.surf i).head with
  | fresh => simp [hh] at h
  | waiting =>
    simp only [hh, Option.isNone_iff_eq_none] at h
    simp [Fabric.serveWaiting, h, hh]
  | mapped m =>
    simp only [hh] at h
    have hb : f.bindHead i m = f := by
      unfold Fabric.bindHead
      cases hr : f.headReady i m with
      | false => simp
      | true =>
        cases hp : m.plan with
        | direct ps => simp [hr, hp] at h
        | stream p =>
          have h' : p.runs ≠ [] := by simpa [hr, hp] using h
          simp [h']
    simp [hh, hb]
  | bound bd =>
    simp only [hh] at h
    have hb : f.handleHead i q bd = f := by
      unfold Fabric.handleHead
      rw [if_pos]
      rcases (Bool.or_eq_true _ _).mp h with h | h
      · exact Or.inl (by simpa using h)
      · exact Or.inr (Or.inr (by simpa using (Bool.and_eq_true _ _ ▸ h).2))
    have hl : ¬ (bd.parts = [] ∧ bd.todo = []) := by
      rintro ⟨h1, h2⟩
      simp [h1, h2] at h
    simp [hh, hb, hl]

theorem Fabric.runLane_of_rests (f : Fabric) (env : Env) (i : Fin 8)
    (h : (f.surf i).lane = [] ∨ (f.surf i).life ≠ .attached ∨ f.headRests i = true) (n : Nat) :
    Fabric.runLane env i n f = f := by
  induction n with
  | zero => rfl
  | succ n ih =>
    unfold Fabric.runLane
    split
    · rename_i hl
      split
      · rename_i q qs hq
        rcases h with h | h | h
        · simp [hq] at h
        · exact absurd hl h
        · rw [Fabric.stepHead_of_headRests f env i q h]; exact ih
      · rfl
    · rfl

theorem Fabric.settleSurface_of_rests (f : Fabric) (env : Env) (i : Fin 8) (h : f.surfaceRests i = true) :
    Fabric.settleSurface env f i = f := by
  unfold Fabric.surfaceRests at h
  rw [Bool.and_eq_true] at h
  unfold Fabric.settleSurface
  rw [Fabric.runLane_of_rests f env i (by simpa [or_assoc] using h.1)]
  unfold Fabric.presentMerge
  cases hm : (f.surf i).mergeClaim with
  | none => rfl
  | some m =>
    have : m.presented.isSome = true := by simpa [hm] using h.2
    have hn : m.presented.isNone = false := by cases hp : m.presented <;> simp_all
    simp [hn]

theorem Fabric.leaveScans_of_rests (f : Fabric) (h : f.scansRest = true) (n : Nat) : Fabric.leaveScans n f = f := by
  cases n with
  | zero => rfl
  | succ n =>
    unfold Fabric.scansRest at h
    unfold Fabric.leaveScans
    cases hs : f.scanQ with
    | nil => rfl
    | cons e es =>
      have : e.parts ≠ [] := by simpa [hs] using h
      simp [this]

theorem Fabric.select_of_rests (f : Fabric) (h : f.engineRests = true) : f.select = f := by
  unfold Fabric.engineRests at h
  unfold Fabric.select
  cases hc : f.copy.current with
  | some c => simp
  | none =>
    rw [hc] at h
    have hf : f.copy.queue.filter (fun j => f.startable j && j.lowestPending.isSome) = [] := by
      rw [List.filter_eq_nil_iff]
      intro j hj
      have := (List.all_eq_true.mp h) j hj
      rwa [Bool.not_eq_true', ← Bool.not_eq_true] at this
    simp [hf, Fabric.earliestHead]

theorem Fabric.runEngine_of_rests (f : Fabric) (h : f.engineRests = true) (n : Nat) : Fabric.runEngine n f = f := by
  cases n with
  | zero => rfl
  | succ n =>
    unfold Fabric.runEngine
    simp only [Fabric.select_of_rests f h]
    cases hc : f.copy.current with
    | none => rfl
    | some c =>
      have : ¬ f.copy.slots.length < 4 := by
        unfold Fabric.engineRests at h
        rw [hc] at h
        simpa using h
      simp [this]

theorem Fabric.foldl_settle_of_rests (f : Fabric) (env : Env) (l : List (Fin 8))
    (h : ∀ i ∈ l, f.surfaceRests i = true) : l.foldl (Fabric.settleSurface env) f = f := by
  induction l with
  | nil => rfl
  | cons i is ih =>
    rw [List.foldl_cons, Fabric.settleSurface_of_rests f env i (h i (by simp))]
    exact ih fun k hk => h k (by simp [hk])

theorem Fabric.settle_of_still (f : Fabric) (env : Env) (h : f.still = true) : f.settle env = f := by
  unfold Fabric.still at h
  simp only [Bool.and_eq_true] at h
  obtain ⟨⟨hs, hq⟩, he⟩ := h
  unfold Fabric.settle
  simp only [Fabric.foldl_settle_of_rests f env _ (List.all_eq_true.mp hs), Fabric.leaveScans_of_rests f hq,
    Fabric.runEngine_of_rests f he]

/-- A fabric at rest has nothing to do at once. -/
theorem Fabric.finish_of_rests (f : Fabric) (env : Env) (h : f.rests = true) : f.finish env = f := by
  unfold Fabric.rests at h
  rw [Bool.and_eq_true, decide_eq_true_eq] at h
  unfold Fabric.finish
  simp only [Fabric.settle_of_still f env h.2, h.1, Fabric.pump]
  rw [← h.1]

/-- Whether the fabric is still depends on the scanout queue, the surfaces and the copy engine alone. -/
theorem Fabric.still_congr {f g : Fabric} (hq : f.scanQ = g.scanQ) (hs : f.surfaces = g.surfaces) (hc : f.copy = g.copy) :
    f.still = g.still := by
  have surf : f.surf = g.surf := by funext i; simp only [Fabric.surf, hs]
  have job : f.jobOf = g.jobOf := by funext i b; simp only [Fabric.jobOf, hc, surf]
  have ready : f.headReady = g.headReady := by
    funext i m; simp only [Fabric.headReady, Fabric.stripesDone, job, surf]
  have heads : f.headRests = g.headRests := by funext i; simp only [Fabric.headRests, surf, ready]
  have rest : f.surfaceRests = g.surfaceRests := by funext i; simp only [Fabric.surfaceRests, surf, heads]
  have start : f.startable = g.startable := by funext j; simp only [Fabric.startable, surf]
  simp only [Fabric.still, Fabric.scansRest, Fabric.engineRests, rest, start, hq, hc]

/-- Whether the fabric rests depends on the offered requests, the scanout queue, the surfaces and the copy engine alone. -/
theorem Fabric.rests_congr {f g : Fabric} (ho : f.offered = g.offered) (hq : f.scanQ = g.scanQ)
    (hs : f.surfaces = g.surfaces) (hc : f.copy = g.copy) : f.rests = g.rests := by
  simp only [Fabric.rests, ho, Fabric.still_congr hq hs hc]

/-- A part at rest stays as it is. -/
theorem State.finish_of_rest (s : State) (h : s.AtRest) : s.finish = s := by
  unfold State.finish State.onFabric
  simp only [Fabric.finish_of_rests s.fab s.env h]

end Sys2Proof.Machine
end

