-- ==== Sys2Proof/Tests/Slice0.lean ====
section
/-! SUPPORT. Tests: an ill-formed term for each well-formedness check, the worked examples of the chapters, and for every
statement with hypotheses a concrete state that meets them. The expected values of the examples stand in the chapter that each
docstring names; none was read off the model. -/

namespace Sys2Proof.Tests

open Sys2Proof Sys2Proof.Machine

set_option Elab.async false

/-! ## Helpers -/

/-- The part after a list of commands. -/
def run (l : List Instr) (s : State) : State :=
  l.foldl (fun s c => match exec c s with | .next t => t | .fault _ => s | .refused _ => s) s

/-- A message and its response clocked out. -/
def send (c : Instr) : List Instr := [c, .responseClockedOut]

/-- A producer or other WRITE with every byte enabled. -/
def put (source addr : Nat) (bytes : List Byte) : UpRequest :=
  { source := BitVec.ofNat 6 source, kind := .write, addr := BitVec.ofNat 40 addr, len := bytes.length, tag := 7,
    bytes := bytes.map (fun b => { value := b, enabled := true }) }

/-- A READ. -/
def get (source addr len : Nat) : UpRequest :=
  { source := BitVec.ofNat 6 source, kind := .read, addr := BitVec.ofNat 40 addr, len := len, tag := 8, bytes := [] }

/-- `n` bytes of a fixed value. -/
def bytes (n : Nat) : List Byte := List.replicate n 0x5A

/-- The placed runs of a DIRECT WRITE into a buffer at address 0: first address and number of pixels of each. -/
def runsOf (d : Descriptor) (r : UpRequest) : List (Nat × Nat) :=
  (gatherRuns [] ((directPixels d d.newLatch 0 r).map (fun p => p.place p.bytes))).map
    (fun run => ((run.head?.map (·.addr)).getD 0, run.length))

/-! ## Ill-formed terms, one for each check -/

theorem test_write_without_its_bytes : (Instr.upstreamRequest { put 5 0 (bytes 4) with bytes := [] }).wellFormed = false := by
  decide
theorem test_read_with_bytes : (Instr.upstreamRequest { put 5 0 (bytes 4) with kind := .read }).wellFormed = false := by decide
theorem test_response_above_256_bytes : (Instr.downstreamResponse 0 .okay (bytes 257)).wellFormed = false := by decide +kernel
theorem test_error_with_data : (Instr.downstreamResponse 0 .error (bytes 1)).wellFormed = false := by decide
theorem test_request_between_ill_formed :
    (Instr.boundary 0 (some { latchFirst := true, requests := [get 9 0 4, { get 9 0 4 with bytes := [{ value := 0, enabled := true }] }] })).wellFormed
      = false := by decide
theorem test_parameters_above_80 : (Instr.ident (bytes 81)).wellFormed = false := by decide
theorem test_filling_row_with_ready : (Instr.discardFilling [0, 1]).wellFormed = false := by decide
theorem test_ready_row_with_filling : (Instr.discardReady [0, 0]).wellFormed = false := by decide
theorem test_unknown_row_with_known_code : (Instr.unknownCodeMessage 0x30 [0]).wellFormed = false := by decide
theorem test_bad_check_row_with_valid_check : (Instr.badCheckMessage 0x30 [2] 0xCD).wellFormed = false := by decide
theorem test_overlong_row_with_80 : (Instr.lengthAbove80 0x30 80).wellFormed = false := by decide
theorem test_break_without_bits : (Instr.breakLink []).wellFormed = false := by decide
theorem test_break_after_eight_bits : (Instr.breakLink (List.replicate 8 true)).wellFormed = false := by decide

/-- The table gives no row any bits. -/
theorem test_no_word_spells_a_command : decodeTableWord 16 0x3001 = none := by decide

/-! ## The control link's worked examples (10, Worked examples; R181) -/

/-- The part after hard reset with the link's footing. -/
def ready : State := run [.cselReleasedIdle] State.reset

/-- The response of a message taken byte by byte. -/
def answerTo (l : List Byte) (s : State) : List Byte := (run (l.map Instr.messageByteTaken) s).link.response

theorem test_ident_response : answerTo [0x01, 0x00, 0xFF] ready = [0x00, 0x04, 0xD4, 0x10, 0x24, 0x03, 0xF1] := by decide +kernel
theorem test_close_message_check : checkByte [0x30, 0x01, 0x02] = 0xCD := by decide
theorem test_scroll_message_check : checkByte [0x22, 0x03, 0x02, 0x2C, 0x01] = 0xAC := by decide
theorem test_scroll_corrupted : answerTo [0x22, 0x03, 0x02, 0x2C, 0x03, 0xAC] ready = [0x07, 0x00, 0xF9] := by decide +kernel
theorem test_scroll_too_short : answerTo [0x22, 0x02, 0x02, 0x2C, 0xAE] ready = [0x08, 0x00, 0xF8] := by decide +kernel
theorem test_unknown_code : answerTo [0x05, 0x00, 0xFB] ready = [0x09, 0x00, 0xF7] := by decide +kernel

/-! ## Placement, conversion and scanout (03, 04, 07) -/

/-- Surface 4 of chapter 3: F16, 320 by 240, pitch 20 units. -/
def surface4 : Descriptor := { Descriptor.zero with format := 1, width := 320, height := 240, pitch := 20 }

/-- 03, Worked example: one request under two orientations. -/
theorem test_one_run_without_flags : runsOf surface4 (put 5 620 (bytes 40)) = [(1240, 20)] := by decide +kernel
theorem test_two_runs_under_mirrorY :
    runsOf { surface4 with orient := 4 } (put 5 620 (bytes 40)) = [(307160, 10), (304640, 10)] := by decide +kernel

/-- 03, Worked example: a quarter-turn panel in F8. -/
theorem test_quarter_turn :
    runsOf { Descriptor.zero with width := 240, height := 320, pitch := 16, orient := 3 } (put 5 1000 (bytes 4)) =
      [(41904, 1), (42928, 1), (43952, 1), (44976, 1)] := by decide +kernel

/-- 01, Worked sequence: one producer write in two parts: runs of 16 and 48 pixels at FC0h and 1000h. -/
theorem test_two_parts_at_4096 :
    runsOf { Descriptor.zero with format := 3, width := 640, height := 480, pitch := 40 } (put 5 0xFC0 (bytes 256)) =
      [(0xFC0, 16), (0x1000, 48)] := by decide +kernel

/-- R58, R60: the word 1234h is red 2, green 17, blue 20; the default tables give 2 × 8 + 0, 17 × 4 + 1 and 20 × 8 + 5. -/
theorem test_f16_expanded : forward Tables.reset surface4 [0x34, 0x12] = [165, 69, 16, 0] := by decide +kernel

/-- 04, Worked sequence: a pixel assembled across requests, step 7: the merge read returns 01h, 02h, 03h, 80h under the held
bytes green 22h and red 33h. -/
theorem test_merge_overlays_held_bytes :
    mergedPixel Tables.reset { Descriptor.zero with format := 2, extra := 0x80 } [none, some 0x22, some 0x33] [1, 2, 3, 0x80] =
      [0x01, 0x22, 0x33, 0x80] := by decide +kernel

/-- Surface 2 of chapter 7 with buffer 3 SHOWN. -/
def banded : Surface :=
  { Surface.empty with
    life := .attached
    desc := { Descriptor.zero with width := 200, height := 100, pitch := 16, bandTop := 20, bandRows := 60 }
    bufs := [BufRec.fresh 0 0, BufRec.fresh 1 0, BufRec.fresh 2 0, { BufRec.fresh 3 0 with st := .shown }]
    scrollActive := 15, topActive := 10, bottomActive := 89 }

/-- 07, Worked example: a read through the band, reads A and B. -/
theorem test_read_through_band :
    banded.scanParts 66496 256 = [{ addr := 81856, len := 64, pos := 0 }, { addr := 20480, len := 192, pos := 64 }] ∧
      banded.scanParts 92136 100 = [{ addr := 92136, len := 24, pos := 0 }] := by decide +kernel

/-! ## The event queue (11, Worked sequence: filling the queue under a fault storm) -/

/-- A record of a kind. -/
def recordOf (k : EventKind) : EventRecord :=
  { kind := k, surface := 0, pipe := 0, buffer := 0, seq := 0, detail := 0, stamp := 0 }

/-- The queue after steps 1 to 4: 29 FLIP records and five TAG_TIMEOUT arrivals. -/
def storm : List EventRecord :=
  (List.replicate 5 (recordOf .tagTimeout)).foldl appendEvent (List.replicate 29 (recordOf .flip))

theorem test_overflow_counts_three :
    storm.length = 32 ∧ storm.getLast?.map (fun r => (r.kind, r.detail)) = some (.overflow, 3) ∧
      attnLow 0x3FFC storm = true := by decide
theorem test_attn_released_for_flip : attnLow 0x3FFC [recordOf .flip] = false ∧ attnLow 0x3FFF [recordOf .flip] = true := by decide

/-! ## States for the witnesses -/

/-- A surface of 4 by 2 pixels, F32, DIRECT, two buffers, on pipe 0. -/
def small : Descriptor :=
  { Descriptor.zero with
    format := 3, width := 4, height := 2, pitch := 1, count := 2, apBase := 0x800000000, base0 := 0x100000,
    base1 := 0x200000, minShow := 1 }

/-- The small surface as a STREAM one. -/
def smallStream : Descriptor := { small with mode := 1, xe := 3, ye := 1 }

/-- Surface 0 DEFINED. -/
def defined : State := run (send (.defineSurface (small.block 0))) ready

/-- Surface 0 ATTACHED, and pipe 0 bound to source 9 with its boundaries enabled. -/
def attached : State := run (send (.bindPipe [0, 9, 1]) ++ send (.attach [0])) defined

/-- A STREAM surface 0 ATTACHED. -/
def streaming : State := run (send (.defineSurface (smallStream.block 0)) ++ send (.attach [0])) ready

/-- A head that has formed a part and waits for its tag. -/
def bound : State := run [.upstreamRequest (put 5 0x800000000 (bytes 8))] attached

/-- The part issued under tag 0. -/
def issuedPart : State := run [.grant] bound

/-- The part answered: buffer 0 FILLING with nothing in flight. -/
def filling : State := run [.downstreamResponse 0 .okay []] issuedPart

/-- Buffer 0 READY. -/
def readyFrame : State := run (send (.close [0])) filling

/-- Buffer 0 SHOWN. -/
def shown : State := run [.boundary 0 none] readyFrame

/-- Buffer 0 SHOWN and buffer 1 READY with an empty lane. -/
def flippable : State :=
  run ([.upstreamRequest (put 5 0x800000000 (bytes 8)), .grant, .downstreamResponse 0 .okay []] ++ send (.close [0])) shown

/-- Buffer 0 SHOWN and buffer 1 READY, the lane head waiting. -/
def waiting : State :=
  run ([.upstreamRequest (put 5 0x800000000 (bytes 8)), .grant, .downstreamResponse 0 .okay []] ++ send (.close [0]) ++
    [.upstreamRequest (put 5 0x800000000 (bytes 8))]) shown

/-- A waiting head behind buffer 0 SHOWN and buffer 1 CLOSING with a write in flight, with a hold limit of 2 and this counter. -/
def heldAt (n : Nat) : State :=
  let s := run ([.upstreamRequest (put 5 0x800000000 (bytes 8)), .grant] ++ send (.close [0]) ++
    [.upstreamRequest (put 5 0x800000000 (bytes 8))] ++ send (.setPolicy [0, 0, 1, 0, 2])) shown
  { s with fab := s.fab.modSurf 0 (fun su => { su with holdWait := n }) }

/-- The same with an expiry that an increment has found and left. -/
def reachedHold : State :=
  { heldAt 2 with fab := (heldAt 2).fab.modSurf 0 (fun su => { su with holdReached := true }) }

/-- Surface 0 DETACHING with a write in flight. -/
def detaching : State := run (send (.detach [0])) issuedPart

/-- The device RESETTING with a write in flight. -/
def resetting : State := run (send (.reset [])) issuedPart

/-- A message of one byte in progress. -/
def receiving : State := run [.messageByteTaken 0x30] ready

/-- The link in RESPONDING. -/
def responding : State := run [.ident []] ready

/-- A pass-through READ of 4 bytes issued under tag 0. -/
def passIssued : State := run [.upstreamRequest (get 5 0x1000 4), .grant] ready

/-- A merge of buffer 0 with its read issued: two pixels written in part, so that the first spills. -/
def merging : State :=
  run [.upstreamRequest (put 5 0x800000000 (bytes 1)), .upstreamRequest (put 5 0x800000004 (bytes 1)), .grant] attached

/-- A QUARANTINED tag 0. -/
def quarantined : State := run [.tagTimeout 0] { issuedPart with timebase := 1024 }

/-- Surface 0 of this height with carry-forward: buffer 0 SHOWN with its first frame, and a write that opens buffer 1, whose first
copy read is issued. -/
def copyingRows (rows : Nat) : State :=
  run (send (.defineSurface ({ small with flags := 4, height := BitVec.ofNat 16 rows }.block 0)) ++ send (.attach [0]) ++ send (.bindPipe [0, 9, 1]) ++
    [.upstreamRequest (put 5 0x800000000 (bytes 8)), .grant, .downstreamResponse 0 .okay []] ++ send (.close [0]) ++
    [.boundary 0 none, .upstreamRequest (put 5 0x800000000 (bytes 8)), .grant]) ready

/-- The same with two rows. -/
def copying : State := copyingRows 2

/-- R59, R60: index 3 through the default palette A, and through a palette B with entry 3 loaded by LOAD_PALETTE, each with the extra
byte. -/
theorem test_f8_through_palette :
    let d : Descriptor := { Descriptor.zero with extra := 0x80 }
    forward Tables.reset d [3] = [3, 3, 3, 0x80] ∧
      forward (run [.loadPalette [1, 3, 1, 0x11, 0x22, 0x33]] ready).tables { d with palette := 1 } [3] =
        [0x11, 0x22, 0x33, 0x80] := by decide +kernel

/-! ## Witnesses: for each statement with hypotheses, states and operands that meet all of them -/

/-- A tag and a paused message that are both due at the same moment. -/
def twoDue : State :=
  { run [.upstreamRequest (put 5 0x800000000 (bytes 8)), .grant, .messageByteTaken 0x30, .linkPause] attached with
    timebase := 20000 }

theorem test_witness_StepTakesFrontCommand :
    twoDue.pending = [] ∧ twoDue.Expired 0 ∧ ¬ twoDue.Expired 1 ∧ twoDue.link.state = .paused ∧
      20000 ≤ (twoDue.timebase - twoDue.link.pauseStart).toNat ∧ ready.pending = [] := by
  unfold State.Expired; decide +kernel

theorem test_witness_HardResetClears : attached.fab.offered = [] ∧ ready.fab.offered = [] := by decide +kernel

/-- A pass-through READ in two parts, the first issued. -/
def halfIssued : State := run [.upstreamRequest (get 5 0xFFE 4), .grant] ready

theorem test_witness_ResetTaken :
    (bound.device = .running ∧ bound.fab.offered = [] ∧ bound.Takes 0x7F [] ∧
      countTags bound.tags TagEntry.isIssued = 0 ∧ (bound.surf 0).lane ≠ [] ∧
      ∃ r ∈ bound.fab.records, (bound.surf 0).lane.map (fun q => q.id) = [r.id] ∧ r.issued = 0 ∧ r.worst = .okay) ∧
    (halfIssued.device = .running ∧ halfIssued.fab.offered = [] ∧ halfIssued.Takes 0x7F [] ∧
      countTags halfIssued.tags TagEntry.isIssued = 1 ∧ halfIssued.fab.passQ ≠ [] ∧
      ∃ r ∈ halfIssued.fab.records, halfIssued.fab.passQ.map (fun e => e.id) = [r.id] ∧ r.issued ≠ 0) := by decide +kernel

/-- For the seven statements about a step: an invariant part that takes a GRANT. -/
theorem test_witness_invariants :
    (QueueSafe shown.fab.events ∧ ReserveKept shown ∧ MaskSafe shown ∧ LinkSafe shown.link ∧
      (∀ i, BuffersSafe (shown.surf i)) ∧ (∀ i, ListsSafe (shown.surf i)) ∧ RoomKept shown.fab ∧ JobsSafe shown.fab) ∧
    ∃ t, step { shown with pending := [.grant] } = .next t := ⟨by decide +kernel, _, rfl⟩

/-- The same with a full queue, a READY buffer in the present queue, and a copy job. -/
theorem test_witness_invariants_at_bounds :
    QueueSafe storm ∧ ListsSafe (readyFrame.surf 0) ∧ (readyFrame.surf 0).present = [0] ∧ JobsSafe copying.fab ∧
      copying.fab.copy.queue ≠ [] := by decide +kernel

theorem test_witness_DescriptorBlockRoundTrip :
    (small.block 7).length = 66 ∧ surfaceNumber (small.block 7) = some 7 := by decide +kernel

theorem test_witness_ResponseLaidOut : (bytes 255).length ≤ 255 ∧ (254 : Nat) < (bytes 255).length := by decide +kernel

/-- A surface of the greatest width and height in its smallest pitch. -/
def widest : Descriptor := { small with width := 4096, height := 4096, pitch := 256 }

theorem test_witness_StoredPlacesDistinct :
    small.check1 = true ∧ small.check2 = true ∧ widest.check1 = true ∧ widest.check2 = true ∧
      4095 < widest.lwOf (orientOf 7) ∧ 4095 < widest.lhOf (orientOf 7) ∧ 1 ≤ (put 5 0x800000000 (bytes 1)).len := by
  decide +kernel

/-- A DIRECT fill latch with a FILLING buffer, and spans that begin and end inside a pixel. -/
theorem test_witness_StoredPlacesDistinct_mapping :
    (filling.surf 0).latch = some small.newLatch ∧ small.newLatch.stream = none ∧
      (filling.surf 0).bufs[0]? = some ((filling.surf 0).buf 0) ∧ (put 5 0x800000003 (bytes 2)).kind = .write ∧
      (get 5 0x800000003 2).kind = .read := by decide +kernel

/-- R43, R46, R47: bytes 3 to 6 of an F24 surface, byte 5 without its enable, lie in pixels 1 and 2. -/
theorem test_direct_bytes :
    let d : Descriptor := { small with format := 2 }
    let r : UpRequest := { put 5 0x800000003 [1, 2, 3, 4] with
      bytes := [⟨1, true⟩, ⟨2, true⟩, ⟨3, false⟩, ⟨4, true⟩] }
    (directPixels d d.newLatch 0 r).map (fun p => p.bytes) = [[some 1, some 2, none], [some 4, none, none]] := by decide +kernel

theorem test_witness_RunsFormed :
    (∃ run ∈ gatherRuns [] [{ px := .index 0, addr := 0, stripe := 0, bytes := [] }, { px := .index 1, addr := 4, stripe := 0, bytes := [] }],
      0 + 1 < run.length) ∧
    (gatherRuns [] [{ px := .index 0, addr := 4092, stripe := 0, bytes := [] },
      { px := .index 1, addr := 4096, stripe := 0, bytes := [] }]).length = 2 := by decide +kernel

/-- A pixel of four bytes of a WRITE, with these enabled bytes. -/
def pixelWith (n : Nat) (l : List (Option Byte)) : PixelMap := { px := .index n, addr := 4 * n, stripe := 0, bytes := l }

/-- A slot that holds the first byte of a pixel. -/
def slotOf (n : Nat) : Slot := { px := .index n, buf := 0, addr := 4 * n, bytes := [some 0x5A, none, none, none] }

/-- For the clauses about one pixel: the pixel full, empty, and in part; the slot empty, with this pixel and with another; the sum
full and not; and a run of 63 and of 64 pixels before it. -/
theorem test_witness_RunsFormed_pixels :
    let full := fun l : List (Option Byte) => ∀ x ∈ l, x ≠ none
    let sum := fun (t : Slot) (p : PixelMap) =>
      List.zipWith (fun held new : Option Byte => new.or held) t.bytes p.bytes
    let before := fun n : Nat => (List.range n).map (fun k =>
      ({ px := .index k, addr := 4 * k, stripe := 0, bytes := [] } : Placed))
    full (pixelWith 1 [some 1, some 2, some 3, some 4]).bytes ∧
      (∀ x ∈ (pixelWith 1 [none, none, none, none]).bytes, x = none) ∧
      ¬ full (pixelWith 1 [none, some 1, none, none]).bytes ∧
      (slotOf 1).px = (pixelWith 1 []).px ∧ (slotOf 1).buf = 0 ∧ (slotOf 2).px ≠ (pixelWith 1 []).px ∧
      full (sum (slotOf 1) (pixelWith 1 [none, some 1, some 2, some 3])) ∧
      ¬ full (sum (slotOf 1) (pixelWith 1 [none, some 1, some 2, none])) ∧
      ((before 63).getLast?.map (fun q => q.addr + 4) = some (pixelWith 63 []).addr ∧ (before 63).length < 64 ∧
        (pixelWith 63 []).addr % 4096 ≠ 0) ∧
      (before 64).getLast?.map (fun q => q.addr + 4) = some (pixelWith 64 []).addr ∧ ¬ (before 64).length < 64 := by
  decide +kernel

/-- The STREAM latch of `smallStream`, with the cursor in a corner of its window or one step before the last. -/
def latchAt (columns : Bool) (x y : Nat) : StreamLatch :=
  { xs := 0, ys := 0, xe := 3, ye := 1, columnFirst := columns, cx := x, cy := y }

/-- Two rows walked to the wrap with four bytes over, the last position alone by columns, and less than a pixel. -/
theorem test_witness_StreamWalked :
    ((latchAt false 0 0).xs ≤ (latchAt false 0 0).cx ∧ (latchAt false 0 0).cx ≤ (latchAt false 0 0).xe ∧
      (latchAt false 0 0).ys ≤ (latchAt false 0 0).cy ∧ (latchAt false 0 0).cy ≤ (latchAt false 0 0).ye ∧
      (heldBytes none).length < smallStream.bpp) ∧
    (streamWalk smallStream smallStream.newLatch (latchAt false 0 0) 0 none (bytes 36)).wrapped = true ∧
    ((latchAt true 3 1).cx = (latchAt true 3 1).xe ∧ (latchAt true 3 1).cy = (latchAt true 3 1).ye) ∧
    (streamWalk smallStream smallStream.newLatch (latchAt true 0 0) 0 none (bytes 12)).placed.map (fun p => p.px) =
      [.pos 0 0, .pos 0 1, .pos 1 0] ∧
    (streamWalk smallStream smallStream.newLatch (latchAt false 2 0) 0 none (bytes 9)).placed.map (fun p => p.px) =
      [.pos 2 0, .pos 3 0] ∧
    (streamWalk smallStream smallStream.newLatch (latchAt true 0 0) 0 none (bytes 3)).placed = [] := by decide +kernel

/-- A STREAM fill latch with a FILLING buffer and a byte held in the slot. -/
theorem test_witness_StreamWalked_mapping :
    let su := (run [.upstreamRequest (put 5 0x800000000 (bytes 1))] streaming).surf 0
    su.latch = some smallStream.newLatch ∧ smallStream.newLatch.stream = some (latchAt false 0 0) ∧
      su.bufs[0]? = some (su.buf 0) ∧ su.slot.isSome = true := by decide +kernel

theorem test_witness_ConversionRoundTrip :
    (bytes 4).length = small.bpp ∧ small.fmt = .f32 ∧ (bytes 2).length = surface4.bpp ∧ surface4.fmt = .f16 ∧
      (bytes 3).length = Descriptor.bpp { small with format := 2 } ∧ Descriptor.fmt { small with format := 2 } = .f24 := by
  decide +kernel

theorem test_witness_MessageTakenByBytes :
    ready.link.state = .idle ∧ ready.link.waitHigh = false ∧ ready.link.bitCount = 0 ∧ (bytes 80).length ≤ 80 ∧
      (0x30 : Byte) = Command.close.code ∧ (0xCD : Byte) = checkByte (messageBody 0x30 [2]) := by decide +kernel

/-- R179, R61, R62: the lengths of two commands, and the least and greatest of the two that load tables. -/
theorem test_lengths :
    (¬ Command.close.Fits [] ∧ Command.close.Fits [0] ∧ Command.attach.Fits [8]) ∧
    (¬ Command.loadExpand.Fits [0, 0, 0] ∧ Command.loadExpand.Fits (0 :: 0 :: 1 :: bytes 1) ∧
      Command.loadExpand.Fits (0 :: 0 :: 64 :: bytes 64) ∧ ¬ Command.loadExpand.Fits (0 :: 0 :: 65 :: bytes 65)) ∧
    (¬ Command.loadPalette.Fits [0, 0, 0] ∧ Command.loadPalette.Fits (0 :: 0 :: 1 :: bytes 3) ∧
      Command.loadPalette.Fits (0 :: 0 :: 24 :: bytes 72) ∧ ¬ Command.loadPalette.Fits (0 :: 0 :: 25 :: bytes 75)) := by
  unfold Command.Fits; decide +kernel

theorem test_witness_MessageTested :
    (ready.Takes 0x30 [2] ∧ byteSum (messageBody 0x30 [2] ++ [0]) ≠ 0) ∧
    (ready.Takes 0x05 [] ∧ commandOf 0x05 = none) ∧
    ready.Takes Command.close.code [] ∧
    (let s := run [.responseClockedOut] resetting
     s.Takes Command.close.code [0] ∧ s.device = .resetting) := by decide +kernel

theorem test_witness_SurfaceTested :
    (ready.Takes Command.attach.code [8] ∧ ready.device = .running ∧
      Command.attach.namesSurface = true ∧ 7 < (byteAt [8] 0).toNat) ∧
    (ready.Takes Command.attach.code [7] ∧ (byteAt [7] 0).toNat = (7 : Fin 8).val ∧
      Command.attach.admittedIn (ready.surf 7).life = false) ∧
    (detaching.Takes Command.detach.code [0] ∧ detaching.device = .running ∧
      Command.detach.admittedIn (detaching.surf 0).life = false ∧ (detaching.surf 0).life = .detaching) := by
  decide +kernel

theorem test_witness_IdentAnswered : ready.Takes 0x01 [] := by decide +kernel

theorem test_witness_StatusAnswered : issuedPart.Takes 0x02 [] := by decide +kernel

theorem test_witness_DefineSurfaceStores :
    ready.Takes 0x10 (small.block 0) ∧ ready.device = .running ∧ (small.block 0).length = 66 ∧
      (byteAt (small.block 0) 0).toNat = (0 : Fin 8).val ∧ (ready.surf 0).life = .empty ∧
      defined.Takes 0x10 (small.block 0) ∧ defined.device = .running ∧ (defined.surf 0).life = .defined := by decide +kernel

theorem test_witness_ReadSurfaceAnswers :
    (ready.Takes 0x11 [7] ∧ ready.device = .running ∧ (7 : Byte).toNat = (7 : Fin 8).val ∧ (ready.surf 7).life = .empty) ∧
    (attached.Takes 0x11 [0] ∧ attached.device = .running ∧ (attached.surf 0).life = .attached) ∧
    (detaching.Takes 0x11 [0] ∧ detaching.device = .running ∧ (detaching.surf 0).life = .detaching) ∧
    (defined.Takes 0x11 [0] ∧ defined.device = .running ∧ (defined.surf 0).life = .defined) := by decide +kernel

/-- Surface 1 DEFINED over the aperture of surface 0, which is ATTACHED. -/
def overlapping : State := run (send (.defineSurface (small.block 1))) attached

/-- Surface 3 DEFINED with zero in every field. -/
def blankDefined : State := ready.modSurf 3 (fun su => { su with life := .defined })

theorem test_witness_AttachReportsCheck :
    (blankDefined.Takes 0x12 [3] ∧ blankDefined.device = .running ∧ (3 : Byte).toNat = (3 : Fin 8).val ∧
      (blankDefined.surf 3).life = .defined) ∧
    (overlapping.Takes 0x12 [1] ∧ overlapping.device = .running ∧ (1 : Byte).toNat = (1 : Fin 8).val ∧
      (overlapping.surf 1).life = .defined) := by decide +kernel

theorem test_witness_AttachReportsCheck_fails : ¬ blankDefined.fab.Passes 3 1 ∧ ¬ overlapping.fab.Passes 1 7 := by
  constructor <;> simp only [Fabric.Passes] <;> decide +kernel

theorem test_witness_AttachReportsCheck_before (m : Nat) (h : 1 ≤ m) (k : m < 7) : overlapping.fab.Passes 1 m := by
  have h : m = 1 ∨ m = 2 ∨ m = 3 ∨ m = 4 ∨ m = 5 ∨ m = 6 := by omega
  rcases h with rfl | rfl | rfl | rfl | rfl | rfl <;> simp only [Fabric.Passes] <;> decide +kernel

theorem test_witness_AttachStarts :
    defined.Takes 0x12 [0] ∧ defined.device = .running ∧ (0 : Byte).toNat = (0 : Fin 8).val ∧ defined.AtRest ∧
      (∀ j ∈ defined.fab.copy.queue, j.surface ≠ 0) ∧ (defined.surf 0).life = .defined := by decide +kernel

theorem test_witness_AttachStarts_passes (n : Nat) (h : 1 ≤ n) (k : n ≤ 8) : defined.fab.Passes 0 n := by
  have h : n = 1 ∨ n = 2 ∨ n = 3 ∨ n = 4 ∨ n = 5 ∨ n = 6 ∨ n = 7 ∨ n = 8 := by omega
  rcases h with rfl | rfl | rfl | rfl | rfl | rfl | rfl | rfl <;> simp only [Fabric.Passes] <;> decide +kernel

theorem test_witness_DetachBegins :
    (∀ s ∈ [shown, issuedPart, bound], s.Takes 0x13 [0] ∧ s.device = .running ∧ (0 : Byte).toNat = (0 : Fin 8).val ∧
      (s.surf 0).life = .attached ∧ (∀ j ∈ s.fab.copy.queue, j.surface ≠ 0) ∧ (s.surf 0).deferred = [] ∧
      (∀ r ∈ (s.surf 0).bufs, r.hold = false) ∧ ((s.surf 0).merges.map (fun m => m.id)).Nodup ∧ s.AtRest) ∧
    ((shown.surf 0).buf 0).st = .shown ∧ ((issuedPart.surf 0).buf 0).prodWrites = 1 ∧
      (bound.surf 0).lane.map (fun q => q.id) = bound.fab.records.map (fun r => r.id) ∧ bound.fab.records ≠ [] ∧
      ∀ r ∈ bound.fab.records, r.issued = 0 ∧ r.worst = .okay := by decide +kernel

/-- A DETACH from each: DEFINED where nothing is in flight, DETACHING where a write is. -/
theorem test_detach_outcomes :
    ((run (send (.detach [0])) shown).surf 0).life = .defined ∧
      ((run (send (.detach [0])) issuedPart).surf 0).life = .detaching ∧
      ((run (send (.detach [0])) bound).surf 0).life = .defined ∧
      (run (send (.detach [0])) bound).fab.sent = [{ tag := 7, code := .aborted, data := [] }] := by decide +kernel

theorem test_witness_EraseEmpties :
    (defined.Takes 0x14 [0] ∧ defined.device = .running ∧ (defined.surf 0).life = .defined) ∧
    (ready.Takes 0x14 [0] ∧ ready.device = .running ∧ (ready.surf 0).life = .empty) ∧
    (attached.Takes 0x14 [0] ∧ attached.device = .running ∧ (attached.surf 0).life = .attached) ∧
    (detaching.Takes 0x14 [0] ∧ detaching.device = .running ∧ (detaching.surf 0).life = .detaching) := by decide +kernel

theorem test_witness_PlacementFieldsChange :
    streaming.device = .running ∧ (streaming.surf 0).life = .attached ∧ streaming.Takes 0x20 [0, 6] ∧
      streaming.Takes 0x20 [0, 7] ∧ streaming.Takes 0x20 [0, 8] ∧
      streaming.Takes 0x21 [0, 1, 0, 3, 0, 0, 0, 1, 0, 1] ∧ streaming.Takes 0x21 [0, 1, 0, 4, 0, 0, 0, 1, 0, 1] ∧
      attached.device = .running ∧ (attached.surf 0).life = .attached ∧
      attached.Takes 0x21 [0, 1, 0, 3, 0, 0, 0, 1, 0, 1] := by decide +kernel

theorem test_witness_ScanoutFieldsChange :
    attached.device = .running ∧ (attached.surf 0).life = .attached ∧ attached.Takes 0x22 [0, 0, 0] ∧
      attached.Takes 0x22 [0, 1, 0] ∧ attached.Takes 0x23 [0, 0, 0, 1, 0] ∧ attached.Takes 0x23 [0, 0, 0, 2, 0] := by
  decide +kernel

theorem test_witness_SetPolicyChanges :
    (attached.Takes 0x24 [0, 1, 4, 7, 15] ∧ attached.device = .running ∧ (attached.surf 0).life = .attached ∧
      attached.AtRest ∧ (attached.surf 0).head ≠ .waiting) ∧
    (waiting.Takes 0x24 [0, 0, 1, 4, 15] ∧ waiting.device = .running ∧ (waiting.surf 0).life = .attached ∧
      waiting.AtRest ∧ (waiting.surf 0).head = .waiting ∧ (byteAt [0, 0, 1, 4, 15] 3).getLsbD 0 = false) := by decide +kernel

/-- RECLAIM set under a waiting head, with a READY buffer to take and with it under source hold. -/
theorem test_witness_SetPolicyChanges_reclaim :
    (let su := waiting.surf 0
     waiting.Takes 0x24 [0, 0, 1, 1, 0] ∧ (byteAt [0, 0, 1, 1, 0] 3).getLsbD 0 = true ∧ su.lane ≠ [] ∧
       su.closePending = false ∧ BuffersSafe su ∧ ListsSafe su ∧ su.present = [] ++ 1 :: [] ∧
       su.bufs[1]? = some (su.buf 1) ∧ (su.buf 1).hold = false) ∧
    (let s := waiting.modSurf 0 (fun su => su.modBuf 1 (fun x => { x with hold := true }))
     s.AtRest ∧ s.Takes 0x24 [0, 0, 1, 1, 0] ∧ (s.surf 0).head = .waiting ∧ (s.surf 0).lane ≠ [] ∧
       BuffersSafe (s.surf 0) ∧ ∀ k ∈ (s.surf 0).present, ((s.surf 0).buf k).hold = true) := by decide +kernel

theorem test_witness_CloseAnswered :
    (attached.Takes 0x30 [0] ∧ attached.device = .running ∧ (attached.surf 0).life = .attached ∧
      ∀ r ∈ (attached.surf 0).bufs, r.st ≠ .filling) ∧
    (bound.Takes 0x30 [0] ∧ bound.device = .running ∧ (bound.surf 0).life = .attached ∧ bound.AtRest ∧
      (∃ r ∈ (bound.surf 0).bufs, r.st = .filling) ∧ (bound.surf 0).lane ≠ [] ∧ (bound.surf 0).headBound = true) := by
  decide +kernel

/-- Buffer 0 FILLING with carry-forward, a pixel written and another held in the slot. -/
def holding : State :=
  run (send (.defineSurface ({ small with flags := 4 }.block 0)) ++ send (.attach [0]) ++
    [.upstreamRequest (put 5 0x800000000 (bytes 4)), .grant, .downstreamResponse 0 .okay [],
     .upstreamRequest (put 5 0x800000010 (bytes 1))]) ready

/-- The same at the last sequence before the wrap. -/
def holdingLast : State := holding.modSurf 0 (fun su => { su with frameCounter := 0xFFFFFFFF })

theorem test_witness_CloseApplies_holding :
    ∀ s ∈ [holding, holdingLast], s.Takes 0x30 [0] ∧ s.device = .running ∧ (s.surf 0).life = .attached ∧ s.AtRest ∧
      BuffersSafe (s.surf 0) ∧ (s.surf 0).lane = [] ∧ (s.surf 0).head = .fresh ∧ (s.surf 0).closing = [] ∧
      (s.surf 0).bufs[0]? = some ((s.surf 0).buf 0) ∧ ((s.surf 0).buf 0).st = .filling ∧
      (s.surf 0).slot.isSome = true ∧ (s.surf 0).desc.flags.getLsbD 2 = true := by decide +kernel

/-- R53, R69: the history entry of that frame holds both stripes, and the slot becomes a merge of the CLOSING buffer. -/
theorem test_close_spills :
    let t := (run [.close [0]] holding).surf 0
    t.history = [{ seq := 1, stripes := [0, 1] }] ∧ t.slot = none ∧ t.merges.map (fun m => m.addr) = [0x100040] ∧
      (t.buf 0).st = .closing := by decide +kernel

theorem test_witness_CloseApplies :
    (filling.Takes 0x30 [0] ∧ filling.device = .running ∧ (filling.surf 0).life = .attached ∧ filling.AtRest ∧
      BuffersSafe (filling.surf 0) ∧ (filling.surf 0).lane = [] ∧ (filling.surf 0).head = .fresh ∧
      (filling.surf 0).closing = [] ∧
      (filling.surf 0).bufs[0]? = some ((filling.surf 0).buf 0) ∧ ((filling.surf 0).buf 0).st = .filling ∧
      ((filling.surf 0).buf 0).prodWrites = 0) ∧
    (issuedPart.Takes 0x30 [0] ∧ issuedPart.device = .running ∧ (issuedPart.surf 0).life = .attached ∧
      issuedPart.AtRest ∧ BuffersSafe (issuedPart.surf 0) ∧ (issuedPart.surf 0).lane = [] ∧
      (issuedPart.surf 0).head = .fresh ∧ (issuedPart.surf 0).closing = [] ∧
      (issuedPart.surf 0).bufs[0]? = some ((issuedPart.surf 0).buf 0) ∧ ((issuedPart.surf 0).buf 0).st = .filling ∧
      ((issuedPart.surf 0).buf 0).prodWrites = 1) := by decide +kernel

/-- Whether a head is mapped and not bound. -/
def isMapped : HeadPhase → Bool
  | .mapped _ => true
  | .bound _ | .waiting | .fresh => false

/-- A head mapped into buffer 1 that waits for stripes: with buffer 2 FREE, with none FREE, and with buffer 2 READY under RECLAIM. -/
def mappedHeads : List State :=
  let free := run (send (.defineSurface ({ small with flags := 4, count := 3, base2 := 0x300000 }.block 0)) ++ send (.attach [0]) ++
    send (.bindPipe [0, 9, 1]) ++
    [.upstreamRequest (put 5 0x800000000 (bytes 8)), .grant, .downstreamResponse 0 .okay []] ++ send (.close [0]) ++
    [.boundary 0 none, .upstreamRequest (put 5 0x800000000 (bytes 8))]) ready
  [free, copying, free.modSurf 0 (fun su =>
    { su with desc := { su.desc with flags := 5 }, present := [2] }.modBuf 2 (fun x => { x with st := .ready }))]

theorem test_witness_CloseApplies_mapped :
    ∀ s ∈ mappedHeads, s.Takes 0x30 [0] ∧ s.device = .running ∧ (s.surf 0).life = .attached ∧ s.AtRest ∧
      BuffersSafe (s.surf 0) ∧ (s.surf 0).lane ≠ [] ∧ isMapped (s.surf 0).head = true ∧ (s.surf 0).closing = [] ∧
      (s.surf 0).bufs[1]? = some ((s.surf 0).buf 1) ∧ ((s.surf 0).buf 1).st = .filling := by decide +kernel

/-- R95, R90, R92, R93: behind a mapped head the close applies at once, and the head opens the FREE buffer, waits, or takes the READY
one. -/
theorem test_close_of_mapped_heads :
    mappedHeads.map (fun s =>
      let t := (run [.close [0]] s).surf 0
      (t.frameCounter, (t.buf 1).st, t.filling, decide (t.head = .waiting), t.present)) =
    [(2, .closing, some 2, false, []), (2, .closing, none, true, []), (2, .closing, some 2, false, [])] := by decide +kernel

/-- The FILLING buffer and its number in states with an empty lane, with a head that has issued its part and more to come, the same
with a request behind it, with a merge of each kind, and with a copy job. -/
def fills : List (State × Nat) :=
  let twoRows := run [.upstreamRequest (put 5 0x80000000C (bytes 8))] filling
  let split := run (send (.setOrient [0, 2]) ++ [.upstreamRequest (put 5 0x800000000 (bytes 8)), .grant]) attached
  [(filling, 0), (twoRows, 0), (split, 0), (run [.upstreamRequest (put 5 0x800000000 (bytes 8))] split, 0), (merging, 0),
   (run [.downstreamResponse 0 .okay (bytes 4)] merging, 0), (copying, 1)]

theorem test_witness_DiscardFillingAbandons :
    (∀ x ∈ fills, x.1.Takes 0x31 [0, 0] ∧ x.1.device = .running ∧ (x.1.surf 0).life = .attached ∧ x.1.AtRest ∧
      BuffersSafe (x.1.surf 0) ∧ ListsSafe (x.1.surf 0) ∧ (x.1.surf 0).bufs[x.2]? = some ((x.1.surf 0).buf x.2) ∧
      ((x.1.surf 0).buf x.2).st = .filling ∧ (x.1.surf 0).closing = [] ∧
      ((x.1.surf 0).merges.map (fun m => m.id)).Nodup) ∧
    fills.map (fun x => (x.1.surf 0).lane.length) = [0, 1, 1, 2, 0, 0, 1] ∧
    fills.map (fun x => match (x.1.surf 0).head with | .bound bd => bd.issued | _ => false) =
      [false, false, true, true, false, false, false] ∧
    fills.map (fun x => (x.1.surf 0).merges.map (fun m => (m.st, m.formed.isSome))) =
      [[], [], [], [], [(.reading, false)], [(.reading, true)], []] ∧
    fills.map (fun x => (x.1.fab.jobOf 0 x.2).isSome) = [false, false, false, false, false, false, true] := by
  decide +kernel

/-- R103, R105, R71: a fill with nothing in flight goes FREE, one whose merge reads goes DRAINING, and one whose merge has formed its
write goes FREE. -/
theorem test_discarded_buffers :
    ([filling, merging, run [.downstreamResponse 0 .okay (bytes 4)] merging].map (fun s =>
      (((run [.discardFilling [0, 0]] s).surf 0).buf 0).st)) = [.free, .draining, .free] := by decide +kernel

theorem test_witness_DiscardReadyEmpties :
    (attached.device = .running ∧ (attached.surf 0).life = .attached ∧ attached.Takes 0x31 [0, 1] ∧
      (attached.surf 0).present = [] ∧ attached.Takes 0x31 [0, 0] ∧ ∀ r ∈ (attached.surf 0).bufs, r.st ≠ .filling) ∧
    (attached.Takes 0x31 [0, 2] ∧ 1 < (2 : Byte).toNat ∧ attached.Takes 0x31 [0, 255]) ∧
    (readyFrame.device = .running ∧ (readyFrame.surf 0).life = .attached ∧ readyFrame.Takes 0x31 [0, 1] ∧
      readyFrame.AtRest ∧ ListsSafe (readyFrame.surf 0) ∧ (readyFrame.surf 0).lane = [] ∧
      (readyFrame.surf 0).present ≠ []) ∧
    (waiting.device = .running ∧ (waiting.surf 0).life = .attached ∧ waiting.Takes 0x31 [0, 1] ∧ waiting.AtRest ∧
      BuffersSafe (waiting.surf 0) ∧ ListsSafe (waiting.surf 0) ∧ (waiting.surf 0).lane ≠ [] ∧
      (waiting.surf 0).head = .waiting ∧ (waiting.surf 0).closePending = false ∧ (waiting.surf 0).present ≠ []) := by
  decide +kernel

/-- R104, R93: the discarded buffer 1 is opened for the waiting head, whose part is formed. -/
theorem test_discard_serves_waiting_head :
    let s := run [.discardReady [0, 1]] { waiting with fab := waiting.fab.modSurf 0 (fun su => { su with holdWait := 3 }) }
    ((s.surf 0).buf 1).st = .filling ∧ (s.surf 0).holdWait = 0 ∧ s.link.response = [0x00, 0x01, 0x01, 0xFE] ∧
      s.bestClaim = some (.lane 0) := by decide +kernel

theorem test_witness_BindPipeWrites :
    ready.Takes 0x40 [3, 63, 1] ∧ ready.device = .running ∧ ready.AtRest ∧ (3 : Byte).toNat = (3 : Fin 4).val ∧
      (63 : Byte).toNat ≤ 63 ∧ (1 : Byte).toNat ≤ 1 ∧ ready.Takes 0x40 [4, 64, 2] := by decide +kernel

theorem test_witness_TablesLoaded :
    ready.device = .running ∧ (bytes 64).length = (64 : Byte).toNat ∧ ready.Takes 0x50 (1 :: 0 :: 64 :: bytes 64) ∧
      ready.Takes 0x50 (0 :: 31 :: 1 :: bytes 1) ∧ ready.Takes 0x50 (2 :: 31 :: 2 :: bytes 2) ∧
      (bytes 72).length = 3 * (24 : Byte).toNat ∧ ready.Takes 0x51 (1 :: 232 :: 24 :: bytes 72) ∧
      ready.Takes 0x51 (0 :: 233 :: 24 :: bytes 72) := by decide +kernel

theorem test_witness_SetTimeoutApplies :
    (let s := { issuedPart with timebase := 64 }
     s.Takes 0x60 [1] ∧ s.device = .running ∧ (s.tag 0).st = .issued ∧ (1 : Byte) ≠ 0 ∧
       (1 : Byte).toNat * 64 ≤ (s.timebase - (s.tag 0).issueTime).toNat) ∧
    (let s := { issuedPart with timebase := 63 }
     s.Takes 0x60 [1] ∧ ¬ (1 : Byte).toNat * 64 ≤ (s.timebase - (s.tag 0).issueTime).toNat) := by decide +kernel

theorem test_witness_ReadEventsRemoves :
    readyFrame.Takes 0x70 [8] ∧ readyFrame.Takes 0x70 [0] ∧ readyFrame.Takes 0x70 [9] ∧ readyFrame.device = .running ∧
      readyFrame.fab.events ≠ [] := by decide +kernel

theorem test_witness_SetAttentionReplaces : ready.Takes 0x71 [0xFF, 0x3F] ∧ ready.Takes 0x71 [0, 0x40] ∧ ready.device = .running := by
  decide +kernel

theorem test_witness_BytesTaken :
    (ready.link.state = .idle ∧ ready.link.waitHigh = false ∧ ready.link.bitCount = 0) ∧
    (receiving.link.state = .receiving ∧ receiving.link.asm.length = 1 ∧ receiving.link.asm ≠ [] ∧
      receiving.link.bitCount = 0 ∧ (80 : Byte).toNat ≤ 80 ∧ 80 < (81 : Byte).toNat) ∧
    (let l := (run [.messageByteTaken 3] receiving).link
     l.state = .receiving ∧ l.asm.length + 1 < (byteAt l.asm 1).toNat + 3 ∧ l.asm.length ≠ 1) ∧
    (State.reset.link.state = .idle ∧ State.reset.link.waitHigh = true ∧ State.reset.link.bitCount = 0 ∧
      (run [.linkPause] receiving).link.state = .paused) ∧
    ready.link.takes [0x30] = true := by decide +kernel

theorem test_witness_PausedMessage :
    (receiving.link.state = .receiving ∧ receiving.link.bitCount = 0 ∧ ready.link.state = .idle) ∧
    (let s := { run [.linkPause] receiving with timebase := 19999 }
     s.link.state = .paused ∧ (s.timebase - s.link.pauseStart).toNat < 20000) ∧
    (let s := { run [.linkPause] receiving with timebase := 20000 }
     s.link.state = .paused ∧ (s.timebase - s.link.pauseStart).toNat ≤ 20000 ∧
       20000 ≤ (s.timebase - s.link.pauseStart).toNat) ∧
    (let s := { run [.linkPause] receiving with timebase := 20001 }
     s.link.state = .paused ∧ 20000 < (s.timebase - s.link.pauseStart).toNat) := by decide +kernel

theorem test_witness_LinkReleased :
    (receiving.link.state = .receiving ∧ receiving.link.bitCount = 0 ∧ [true].length ≤ 7 ∧
      (List.replicate 7 false).length ≤ 7) ∧
    (ready.link.state = .idle ∧ ready.link.waitHigh = false ∧ ready.link.bitCount = 0) ∧
    (State.reset.link.state = .idle ∧ State.reset.link.waitHigh = true ∧ State.reset.link.bitCount = 0) ∧
    (responding.link.state = .responding ∧ responding.link.respPos + 55 < 8 * responding.link.response.length ∧
      8 * responding.link.response.length ≤ responding.link.respPos + 56 ∧
      responding.link.respPos + 8 < 8 * responding.link.response.length) ∧
    (ready.link.cselHigh = true ∧ receiving.link.cselHigh = false ∧ responding.link.cselHigh = false) ∧
    (let l := (run [.messageByteTaken 0] responding).link
     l.state = .responding ∧ l.cselHigh = false ∧ l.respPos = 7 + 1) := by decide +kernel

/-- R169, R175: of the first byte 00h of the response of IDENT the last bit is low on CDO, and its length byte 04h has its sixth
bit high. -/
theorem test_response_bit_order :
    (run [.messageByteTaken 0] responding).cdoLevel = some false ∧
      (List.range 16).filter (responseBit responding.link.response) = [13] := by decide +kernel

/-- Sixteen pass-through requests in the queue. -/
def passFull : State := run (List.replicate 16 (.upstreamRequest (get 5 0x1000 4))) ready

theorem test_witness_PassThroughAccepted :
    (ready.AtRest ∧ ready.fab.classify ready.env (get 5 0xFFF 1) = .passThrough ∧
      ready.fab.classify ready.env (get 5 0xFFF 2) = .passThrough ∧ ready.device = .running) ∧
    (passFull.AtRest ∧ passFull.fab.classify passFull.env (get 5 0 4) = .passThrough ∧ passFull.fab.passQ.length = 16) := by
  decide +kernel

/-- Eight requests in the lane of surface 0. -/
def laneFull : State := run (List.replicate 8 (.upstreamRequest (put 5 0x800000000 (bytes 8)))) attached

/-- Surface 1 ATTACHED with the aperture that follows surface 0's. -/
def adjacent : State :=
  run (send (.defineSurface ({ small with apBase := 0x800001000, base0 := 0x300000, base1 := 0x400000 }.block 1)) ++
    send (.attach [1])) attached

/-- Surface 0 in the indexed format. -/
def indexed : State :=
  run (send (.defineSurface ({ small with format := 0 }.block 0)) ++ send (.attach [0])) ready

theorem test_witness_AnsweredAtAcceptance :
    (∀ s ∈ [attached, adjacent, laneFull, detaching, streaming, indexed], s.AtRest ∧ s.device = .running) ∧
    ((get 5 0 0).len = 0 ∧ 256 < (get 5 0 257).len ∧
      2 ^ 40 < (get 5 0xFFFFFFFFFF 2).addr.toNat + (get 5 0xFFFFFFFFFF 2).len) ∧
    (attached.pipes.get (attached.surf 0).desc.pipeIndex).source = 9 := by decide +kernel

theorem test_witness_AnsweredAtAcceptance_classes :
    (∀ i, ¬ attached.fab.Meets (get 5 0x7FFFFFFFF 1) i) ∧
    (attached.fab.Within (get 9 0x800000000 256) 0 ∧ attached.fab.Within (put 9 0x800000000 (bytes 4)) 0 ∧
      attached.fab.Within (get 5 0x80000001C 4) 0) ∧
    (attached.fab.Meets (get 5 0x7FFFFFFFF 2) 0 ∧ attached.fab.Meets (get 5 0x800000FFF 2) 0) ∧
    (adjacent.fab.Meets (get 5 0x800000FFF 2) 0 ∧ adjacent.fab.Meets (get 5 0x800000FFF 2) 1) := by
  unfold Fabric.Within Fabric.Meets; decide +kernel

/-- Each of the five rules broken, and a full lane with none broken. -/
theorem test_witness_AnsweredAtAcceptance_rules :
    (∀ x ∈ [(detaching, put 5 0x800000000 (bytes 4)), (attached, put 5 0x80000001D (bytes 4)),
        (indexed, get 5 0x800000000 4), (streaming, get 5 0x800000000 4),
        (streaming, { put 5 0x800000000 (bytes 1) with bytes := [{ value := 0, enabled := false }] })],
      x.2.wellFormed = true ∧ x.1.fab.Within x.2 0 ∧ x.1.fab.Breaks x.2 0) ∧
    (laneFull.fab.Within (put 5 0x800000000 (bytes 4)) 0 ∧ ¬ laneFull.fab.Breaks (put 5 0x800000000 (bytes 4)) 0 ∧
      8 ≤ (laneFull.surf 0).lane.length) := by
  dsimp only [Fabric.Within, Fabric.Breaks, Fabric.Meets]; decide +kernel

theorem test_witness_ProducerJoinsLane :
    bound.AtRest ∧ bound.device = .running ∧
      bound.fab.classify bound.env (put 5 0x800000000 (bytes 4)) = .producer 0 ∧
      (bound.surf 0).refusesProducer (put 5 0x800000000 (bytes 4)) = false ∧ (bound.surf 0).lane ≠ [] ∧
      (bound.surf 0).lane.length < 8 := by decide +kernel

/-- A STREAM surface with a FILLING buffer and an empty lane. -/
def streamFilling : State :=
  run [.upstreamRequest (put 5 0x800000000 (bytes 8)), .grant, .downstreamResponse 0 .okay []] streaming

/-- A FILLING buffer whose stripes are being copied, with an empty lane. -/
def copyFilling : State := copying.modSurf 0 (fun su => { su with lane := [], head := .fresh })

/-- A request that joins an empty lane of a FILLING buffer: in a DIRECT surface, with a merge outstanding, behind a copy job, and in
a STREAM surface. -/
theorem test_witness_ProducerJoinsLane_filling :
    (∀ x ∈ [(filling, 0), (merging, 0), (copyFilling, 1), (streamFilling, 0)],
      x.1.AtRest ∧ x.1.device = .running ∧ x.1.fab.classify x.1.env (put 5 0x800000000 (bytes 4)) = .producer 0 ∧
        (x.1.surf 0).refusesProducer (put 5 0x800000000 (bytes 4)) = false ∧ (x.1.surf 0).lane = [] ∧
        (x.1.surf 0).head = .fresh ∧ (x.1.surf 0).closePending = false ∧ BuffersSafe (x.1.surf 0) ∧
        (x.1.surf 0).bufs[x.2]? = some ((x.1.surf 0).buf x.2) ∧ ((x.1.surf 0).buf x.2).st = .filling ∧
        ∀ y ∈ x.1.fab.records, y.id ≠ x.1.fab.nextId) ∧
    ((filling.surf 0).mergeOutstanding = false ∧ filling.fab.jobOf 0 0 = none ∧ (merging.surf 0).mergeOutstanding = true ∧
      (streamFilling.surf 0).mergeOutstanding = false ∧ streamFilling.fab.jobOf 0 0 = none) ∧
    (copyFilling.fab.jobOf 0 1).map (fun j => j.stateOf 0) = some (some .copying) ∧
      0 ∈ ((copyFilling.surf 0).mapHead 1 (put 5 0x800000000 (bytes 4))).stripes := by decide +kernel

/-- The outcomes: a DIRECT head bound with its part, and one without parts answered; a STREAM head mapped, and one without parts
answered, its bytes in the slot. -/
theorem test_joined_heads :
    [(filling, 4), (filling, 1), (streamFilling, 4), (streamFilling, 1)].map (fun x =>
      let t := run [.upstreamRequest (put 5 0x800000000 (bytes x.2))] x.1
      ((t.surf 0).lane.length, (t.surf 0).headBound, isMapped (t.surf 0).head, (t.surf 0).slot.isSome, t.fab.sent.length)) =
    [(1, true, false, false, 1), (0, false, false, true, 2), (1, false, true, false, 1), (0, false, false, true, 2)] := by
  decide +kernel

/-- Both buffers READY, with these flags. -/
def bothReady (flags : Byte) : State :=
  let frame := [Instr.upstreamRequest (put 5 0x800000000 (bytes 8)), .grant, .downstreamResponse 0 .okay []] ++ send (.close [0])
  run (send (.defineSurface ({ small with flags := flags }.block 0)) ++ send (.attach [0]) ++ frame ++ frame) ready

/-- Both buffers FREE, the newest frame in buffer 1. -/
def newestFree : State :=
  attached.modSurf 0 (fun su => { su with frameCounter := 5 }.modBuf 1 (fun x => { x with content := 5 }))

/-- Both buffers FREE, neither with the newest frame, and buffer 1 with the one that the history knows. -/
def knownFree : State :=
  attached.modSurf 0 (fun su => { su with frameCounter := 6, history := [{ seq := 5, stripes := [] }] }.modBuf 1
    (fun x => { x with content := 5 }))

/-- A surface of 4 by 2 pixels with carry-forward and three buffers: buffer 0 SHOWN with the only frame, the others FREE. -/
def carrying : State :=
  run (send (.defineSurface ({ small with flags := 4, count := 3, base2 := 0x300000 }.block 0)) ++ send (.attach [0]) ++
    send (.bindPipe [0, 9, 1]) ++
    [.upstreamRequest (put 5 0x800000000 (bytes 8)), .grant, .downstreamResponse 0 .okay []] ++ send (.close [0]) ++
    [.boundary 0 none]) ready

/-- Buffer 1 CLOSING behind its copy job, whose stripe 0 is DONE and whose stripe 1 is being read. -/
def carryQueued : State :=
  run ([.upstreamRequest (put 5 0x800000000 (bytes 8)), .grant, .downstreamResponse 0 .okay (bytes 16), .grant,
    .downstreamResponse 0 .okay [], .grant, .grant, .downstreamResponse 0 .okay []] ++ send (.close [0])) carrying

/-- No buffer holds the newest frame. -/
def carryLost : State := carrying.modSurf 0 (fun su => su.modBuf 0 (fun x => { x with content := 0 }))

/-- Both buffers READY under RECLAIM with carry-forward. -/
def carryReclaim : State := (bothReady 1).modSurf 0 (fun su => { su with desc := { su.desc with flags := 5 } })

/-- Each case of State.CopyDecided: no stripe to copy; the newest frame lost; a job, QUEUED and DEFERRED, in a surface with a FREE
buffer 1 or 2 and under RECLAIM. -/
theorem test_witness_FirstRequestOpens_carry :
    (∀ s ∈ [carrying, carryQueued, carryLost, carryReclaim],
      s.AtRest ∧ s.device = .running ∧ s.fab.classify s.env (put 5 0x800000000 (bytes 4)) = .producer 0 ∧
        (s.surf 0).refusesProducer (put 5 0x800000000 (bytes 4)) = false ∧ (s.surf 0).lane = [] ∧
        (s.surf 0).head = .fresh ∧ (s.surf 0).closePending = false ∧ ∀ x ∈ (s.surf 0).bufs, x.st ≠ .filling) ∧
    (((carrying.surf 0).buf 0).content = (carrying.surf 0).frameCounter ∧ carrying.fab.copy.queue = [] ∧
      carrying.fab.copy.current = none ∧ carrying.fab.jobOf 0 1 = none ∧
      0 ∈ directStripes .write (directPixels (carrying.surf 0).desc (carrying.surf 0).desc.newLatch
        ((carrying.surf 0).buf 1).base.toNat (put 5 0x800000000 (bytes 4)))) ∧
    (((carryQueued.surf 0).buf 1).content = (carryQueued.surf 0).frameCounter ∧
      ∃ q ∈ carryQueued.fab.copy.queue, q.surface = 0) ∧
    (∀ y ∈ (carryLost.surf 0).bufs, y.content ≠ (carryLost.surf 0).frameCounter) ∧
    (ListsSafe (carryReclaim.surf 0) ∧ (carryReclaim.surf 0).present = [] ++ 0 :: [1] ∧ (∀ y ∈ (carryReclaim.surf 0).bufs, y.st ≠ .free) ∧
      ((carryReclaim.surf 0).buf 0).hold = false ∧
      ((carryReclaim.surf 0).buf 1).content = (carryReclaim.surf 0).frameCounter) := by decide +kernel

theorem test_witness_FirstRequestOpens_carry_sets :
    ((carrying.surf 0).Copies 1 0 ∧ (carryQueued.surf 0).Copies 2 1) ∧ (carryLost.surf 0).Copies 1 1 ∧
      (carryReclaim.surf 0).Copies 0 1 := by
  simp only [← Surface.mem_copySet]; decide +kernel

theorem test_witness_FirstRequestOpens_none (b x : Nat) : ¬ (attached.surf 0).Copies b x := fun h => by
  have hf : (attached.surf 0).desc.flags.getLsbD 2 = false := by decide +kernel
  exact absurd h.1 (by rw [hf]; decide)

/-- R133: frames 6 to 8 of the history are newer than the one of buffer 0, and buffer 1 holds none that the history knows. -/
theorem test_copy_set_of_history :
    let su : Surface := { carrying.surf 0 with
      frameCounter := 8, history := [⟨5, [0, 1]⟩, ⟨6, [10]⟩, ⟨7, [10, 11]⟩, ⟨8, [20]⟩],
      bufs := [{ BufRec.fresh 0 0 with content := 5 }, { BufRec.fresh 1 0 with content := 4 }] }
    su.copySet 0 = [10, 11, 20] ∧ su.copySet 1 = [0, 1] := by decide +kernel

/-- The choices of the FREE buffer in the states with carry-forward. -/
theorem test_witness_FirstRequestOpens_carry_choice :
    (∀ s ∈ [carrying, carryLost], (s.surf 0).chooseFree = some 1) ∧ (carryQueued.surf 0).chooseFree = some 2 := by
  decide +kernel

theorem test_witness_FirstRequestOpens :
    (∀ s ∈ [attached, bothReady 0, bothReady 1, newestFree, knownFree],
      s.AtRest ∧ s.device = .running ∧ s.fab.classify s.env (put 5 0x800000000 (bytes 4)) = .producer 0 ∧
        (s.surf 0).refusesProducer (put 5 0x800000000 (bytes 4)) = false ∧ (s.surf 0).lane = [] ∧
        (s.surf 0).head = .fresh ∧ (s.surf 0).closePending = false ∧ ∀ x ∈ (s.surf 0).bufs, x.st ≠ .filling) ∧
    ((attached.surf 0).desc.mode ≠ 1 ∧ (attached.surf 0).desc.flags.getLsbD 2 = false ∧ attached.fab.jobOf 0 0 = none ∧
      (attached.surf 0).mergeOutstanding = false ∧
      ((handleWrite 0 none [] (directPixels (attached.surf 0).desc (attached.surf 0).desc.newLatch
        ((attached.surf 0).buf 0).base.toNat (put 5 0x800000000 (bytes 4)))).part).isSome = true) ∧
    ((∀ y ∈ ((bothReady 1).surf 0).bufs, y.st ≠ .free) ∧ ((bothReady 1).surf 0).desc.flags.getLsbD 0 = true ∧
      ((bothReady 1).surf 0).present = [] ++ 0 :: [1] ∧
      (((bothReady 1).surf 0).buf 0).hold = false ∧ ListsSafe ((bothReady 1).surf 0)) ∧
    ((∀ y ∈ ((bothReady 0).surf 0).bufs, y.st ≠ .free) ∧ ((bothReady 0).surf 0).desc.flags.getLsbD 0 = false) := by
  decide +kernel

/-- A STREAM head with parts, in a surface without a FILLING buffer. -/
theorem test_witness_FirstRequestOpens_stream :
    (streaming.AtRest ∧ streaming.device = .running ∧
      streaming.fab.classify streaming.env (put 5 0x800000000 (bytes 4)) = .producer 0 ∧
      (streaming.surf 0).refusesProducer (put 5 0x800000000 (bytes 4)) = false ∧ (streaming.surf 0).lane = [] ∧
      (streaming.surf 0).head = .fresh ∧ (streaming.surf 0).closePending = false ∧
      (∀ x ∈ (streaming.surf 0).bufs, x.st ≠ .filling) ∧ (streaming.surf 0).chooseFree = some 0) ∧
    (match ({ streaming.surf 0 with latch := some (streaming.surf 0).desc.newLatch }.mapHead 0 (put 5 0x800000000 (bytes 4))).plan with
      | .stream plan => plan.runs.map (fun r => r.map (fun p => p.addr))
      | .direct _ => []) = [[0x100000]] := by decide +kernel

/-- A surface of two FREE buffers with these content sequences. -/
theorem firstChoice_pair (su : Surface) (x y : BufRec) (hb : su.bufs = [x, y]) (hx : x.st = .free) (hy : y.st = .free) :
    (su.frameCounter ≠ 0 → y.content = su.frameCounter → x.content ≠ su.frameCounter → su.FirstChoice 1) ∧
    (su.frameCounter ≠ 0 → x.content ≠ su.frameCounter → y.content ≠ su.frameCounter →
      (∃ e ∈ su.history, e.seq = y.content) → x.content < y.content → su.FirstChoice 1) ∧
    (su.frameCounter = 0 → su.history = [] → su.FirstChoice 0) := by
  have hpair : ∀ (k : Nat) (z : BufRec), su.bufs[k]? = some z ∧ z.st = .free → k = 0 ∧ z = x ∨ k = 1 ∧ z = y := by
    rintro k z ⟨h, -⟩
    rw [hb] at h
    match k, h with
    | 0, h => exact .inl ⟨rfl, (by simpa using h.symm)⟩
    | 1, h => exact .inr ⟨rfl, (by simpa using h.symm)⟩
  refine ⟨fun hc h1 h0 => ⟨y, ⟨by simp [hb], hy⟩, .inl ⟨⟨hc, h1⟩, ?_⟩⟩,
    fun hc h0 h1 hk hl => ⟨y, ⟨by simp [hb], hy⟩, .inr (.inl ⟨?_, hk, ?_, ?_⟩)⟩,
    fun hc hh => ⟨x, ⟨by simp [hb], hx⟩, .inr (.inr ⟨?_, fun k x h => by omega⟩)⟩⟩
  · intro k z hk hz hn
    rcases hpair k z hz with ⟨rfl, rfl⟩ | ⟨rfl, rfl⟩ <;> simp_all
  · intro k z hz
    rcases hpair k z hz with ⟨rfl, rfl⟩ | ⟨rfl, rfl⟩ <;> simp_all
  · intro k z hz _
    rcases hpair k z hz with ⟨rfl, rfl⟩ | ⟨rfl, rfl⟩ <;> omega
  · intro k z hk hz _
    rcases hpair k z hz with ⟨rfl, rfl⟩ | ⟨rfl, rfl⟩ <;> omega
  · intro k z hz
    exact ⟨fun h => h.1 hc, fun ⟨e, he, _⟩ => by simp [hh] at he⟩

/-- R90: the only FREE buffer of a surface is the one preferred. -/
theorem firstChoice_only (su : Surface) (b : Nat) (hf : (su.bufs[b]?).map (fun x => x.st) = some .free)
    (ho : ∀ k, k < su.bufs.length → (su.bufs[k]?).map (fun x => x.st) = some .free → k = b) : su.FirstChoice b := by
  obtain ⟨r, hb, hs⟩ := Option.map_eq_some_iff.1 hf
  have only : ∀ (k : Nat) (x : BufRec), su.bufs[k]? = some x ∧ x.st = .free → k = b ∧ x = r := by
    rintro k x ⟨hk, hx⟩
    have := ho k (List.getElem?_eq_some_iff.1 hk).1 (by simp [hk, hx])
    subst this
    exact ⟨rfl, Option.some.inj (hk.symm.trans hb)⟩
  have none_before : ∀ k x, k < b → ¬ (su.bufs[k]? = some x ∧ x.st = .free) := fun k x hk h => by
    have := (only k x h).1; omega
  by_cases hn : su.frameCounter ≠ 0 ∧ r.content = su.frameCounter
  · exact ⟨r, ⟨hb, hs⟩, .inl ⟨hn, fun k x hk h => absurd h (none_before k x hk)⟩⟩
  · by_cases hk : ∃ e ∈ su.history, e.seq = r.content
    · refine ⟨r, ⟨hb, hs⟩, .inr (.inl ⟨?_, hk, ?_, fun k x hl h => absurd h (none_before k x hl)⟩)⟩
      · intro k x h; rw [(only k x h).2]; exact hn
      · intro k x h _; rw [(only k x h).2]
    · refine ⟨r, ⟨hb, hs⟩, .inr (.inr ⟨?_, fun k x hl => none_before k x hl⟩)⟩
      intro k x h; rw [(only k x h).2]; exact ⟨hn, hk⟩

theorem test_witness_FirstRequestOpens_choice :
    (attached.surf 0).FirstChoice 0 ∧ (newestFree.surf 0).FirstChoice 1 ∧ (knownFree.surf 0).FirstChoice 1 :=
  ⟨(firstChoice_pair _ ((attached.surf 0).buf 0) ((attached.surf 0).buf 1) (by decide +kernel) (by decide +kernel)
      (by decide +kernel)).2.2 (by decide +kernel) (by decide +kernel),
    (firstChoice_pair _ ((newestFree.surf 0).buf 0) ((newestFree.surf 0).buf 1) (by decide +kernel) (by decide +kernel)
      (by decide +kernel)).1 (by decide +kernel) (by decide +kernel) (by decide +kernel),
    (firstChoice_pair _ ((knownFree.surf 0).buf 0) ((knownFree.surf 0).buf 1) (by decide +kernel) (by decide +kernel)
      (by decide +kernel)).2.1 (by decide +kernel) (by decide +kernel) (by decide +kernel) (by decide +kernel)
      (by decide +kernel)⟩

theorem test_witness_ScanoutReadResolved :
    (BuffersSafe banded ∧ banded.life = .attached ∧ banded.bufs[3]? = some { BufRec.fresh 3 0 with st := .shown } ∧
      Surface.empty.life ≠ .attached ∧ banded.topActive = 10 ∧ banded.bottomActive = 89 ∧ banded.desc.bandTop = 20 ∧
      banded.desc.bandRows = 60 ∧ banded.scanByte (9 * 1024 + 1023) = none ∧ banded.scanByte (90 * 1024) = none) ∧
    (attached.AtRest ∧ attached.device = .running ∧
      attached.fab.classify attached.env (get 9 0x800000000 64) = .scanout 0 ∧ attached.fab.scanQ.length < 8 ∧
      (attached.surf 0).scanParts 0 64 = [] ∧ attached.fab.scanQ = [] ∧
      ∀ q ∈ attached.fab.records, q.id ≠ attached.fab.nextId) ∧
    (shown.AtRest ∧ shown.device = .running ∧
      shown.fab.classify shown.env (get 9 0x800000000 64) = .scanout 0 ∧ shown.fab.scanQ.length < 8 ∧
      (shown.surf 0).scanParts 0 64 ≠ [] ∧ (shown.surf 0).scanTarget = some 0) := by decide +kernel

/-- A scanout head with a part beside a lane head with a part. -/
def twoClaims : State := run [.upstreamRequest (put 5 0x800000000 (bytes 8)), .upstreamRequest (get 9 0x800000000 64)] shown

/-- Twenty-eight pass-through parts issued, which leaves the reserve alone. -/
def reserveLeft : State :=
  run ((List.replicate 28 [Instr.upstreamRequest (get 5 0x1000 4), .grant]).flatten ++ [.upstreamRequest (get 5 0x1000 4)]) ready

/-- The merge of `merging` before its grant. -/
def mergeAsking : State :=
  run [.upstreamRequest (put 5 0x800000000 (bytes 1)), .upstreamRequest (put 5 0x800000004 (bytes 1))] attached

/-- A claim of each kind: the last scanout part, a pass-through part with another behind it, a merge's read and its write, a chunk's
read and its write, and a part of a DIRECT WRITE, a DIRECT READ and a STREAM WRITE. -/
theorem test_witness_GrantIssues :
    twoClaims.bestClaim = some .scanout ∧
    (run [.upstreamRequest (get 5 0xFFE 4)] ready).bestClaim = some .pass ∧
    mergeAsking.bestClaim = some (.merge 0) ∧
    (run [.downstreamResponse 0 .okay (bytes 4)] merging).bestClaim = some (.merge 0) ∧
    (run [.upstreamRequest (put 5 0x800000000 (bytes 8))] carrying).bestClaim = some .copy ∧
    (run [.downstreamResponse 0 .okay (bytes 16)] copying).bestClaim = some .copy ∧
    bound.bestClaim = some (.lane 0) ∧
    (run [.upstreamRequest (get 5 0x800000000 4)] attached).bestClaim = some (.lane 0) ∧
    (run [.upstreamRequest (put 5 0x800000000 (bytes 8))] streaming).bestClaim = some (.lane 0) ∧
    attached.AtRest ∧ attached.bestClaim = none := by decide +kernel

/-- A lane head with its last part to issue: alone, with a request behind it, with a close pending, with both, and a STREAM head
whose second and last part ends the window. -/
def lastParts : List State :=
  let two := run [.upstreamRequest (put 5 0x800000010 (bytes 8))] bound
  [bound, two, run (send (.close [0])) bound, run (send (.close [0])) two,
   run [.upstreamRequest (put 5 0x800000000 (bytes 32)), .grant] streaming]

theorem test_witness_GrantIssues_last :
    (∀ s ∈ lastParts,
      let u := s.grantTo (if s.issued = [] then 0 else 1) (.lane 0)
      s.AtRest ∧ s.bestClaim = some (.lane 0) ∧ (u.surf 0).life = .attached ∧ BuffersSafe (u.surf 0) ∧ (u.surf 0).closing = [] ∧
        ((u.surf 0).buf 0).st = .filling ∧ (u.surf 0).filling = some 0 ∧ ((u.surf 0).lane.map (fun q => q.id)).Nodup ∧
        (match (u.surf 0).head with
          | .bound bd => bd.parts.isEmpty && bd.todo.isEmpty
          | .mapped _ | .waiting | .fresh => false) = true) ∧
    lastParts.map (fun s => ((s.surf 0).lane.length, (s.surf 0).closePending)) =
      [(1, false), (2, false), (1, true), (2, true), (1, true)] := by decide +kernel

/-- R14, R78, R95: the head has left the lane; a pending close has given the frame its sequence, the window's wrap too, and the next
head has opened buffer 1. -/
theorem test_last_parts_issued :
    lastParts.map (fun s =>
      let t := (run [.grant] s).surf 0
      (t.lane.length, t.frameCounter, t.filling, t.closing)) =
    [(0, 0, some 0, []), (1, 0, some 0, []), (0, 1, none, [0]), (1, 1, some 1, [0]), (0, 1, none, [0])] := by decide +kernel

theorem test_witness_GrantOrder :
    (twoClaims.freeTags ≠ 0 ∧ twoClaims.fab.scanPart ≠ none ∧ twoClaims.fab.intakeClaims ≠ []) ∧
    (reserveLeft.freeTags = 4 ∧ reserveLeft.fab.scanPart = none ∧ reserveLeft.fab.intakeClaims ≠ []) ∧
    (4 < mergeAsking.freeTags ∧ mergeAsking.fab.scanPart = none ∧ (mergeAsking.surf 0).mergeClaim ≠ none) ∧
    (4 < copying.freeTags ∧ copying.fab.scanPart = none ∧ (∀ k, (copying.surf k).mergeClaim = none) ∧
      copying.fab.copyChunk ≠ none ∧ copying.copyIssued = 1) ∧
    (4 < bound.freeTags ∧ bound.fab.scanPart = none ∧ (∀ k, (bound.surf k).mergeClaim = none) ∧
      bound.fab.copyChunk = none ∧ bound.fab.intakeClaims ≠ []) ∧
    (let s := run [.grant] (copyingRows 5)
     4 < s.freeTags ∧ s.fab.scanPart = none ∧ (∀ k, (s.surf k).mergeClaim = none) ∧ s.fab.copyChunk ≠ none ∧
       s.copyIssued = 2 ∧ s.fab.intakeClaims = []) ∧
    (let s := run [.grant, .grant, .grant] (copyingRows 5)
     4 < s.freeTags ∧ s.fab.scanPart = none ∧ (∀ k, (s.surf k).mergeClaim = none) ∧ s.copyIssued = 4 ∧
       s.fab.intakeClaims = []) := by decide +kernel

/-- A part of each kind in flight under tag 0 in buffer 0. -/
def inFlights : List (State × OwnerKind) :=
  [(issuedPart, .producerWrite), (run [.upstreamRequest (get 5 0x800000000 4), .grant] attached, .producerRead),
   (run [.upstreamRequest (get 9 0x800000000 64), .grant] shown, .scanoutRead)]

theorem test_witness_ResponseFreesTag :
    ((issuedPart.tag 0).st = .issued ∧ issuedPart.device = .running ∧ (issuedPart.tag 31).st = .free) ∧
    ∀ x ∈ inFlights, x.1.InFlight 0 0 0 ((x.1.surf 0).buf 0) ∧ (x.1.tag 0).kind = x.2 ∧
      ∃ p ∈ x.1.fab.records, (x.1.tag 0).upRef = some p.id ∧
        x.1.fab.records.find? (fun q => q.id == p.id) = some p ∧ 1 ≤ p.issued := by
  unfold State.InFlight; decide +kernel

/-- The routes of those parts, and the data that answers them. -/
theorem test_witness_ResponseFreesTag_routes :
    inFlights.map (fun x => (x.1.tag 0).route) =
      [.nowhere, .pixels ([0].map .index) 0, .bytes 0 (bytes 64).length] ∧
    (bytes 4).length = 4 * [0].length ∧ [0].Nodup ∧ (attached.surf 0).desc.fmt ≠ .f8 := by decide +kernel

/-- A scanout part of this many bytes in flight under tag 0 in buffer 0, and buffer 1 flipped in over it. -/
def draining (len : Nat) : State := run [.upstreamRequest (get 9 0x800000000 len), .grant, .boundary 0 none] flippable

/-- The last part of a DRAINING buffer and one of two, the last WRITE of a CLOSING buffer and one of two. -/
theorem test_witness_ResponseFreesTag_last :
    (∀ s ∈ [draining 64, (draining 64).modSurf 0 (fun su => su.modBuf 0 (fun r => { r with scanReads := 2 }))],
      s.AtRest ∧ s.device = .running ∧ (s.tag 0).st = .issued ∧ (s.tag 0).surface = some 0 ∧ (s.tag 0).buffer = some 0 ∧
        (s.surf 0).life = .attached ∧ (s.surf 0).lane = [] ∧ (s.surf 0).bufs[0]? = some ((s.surf 0).buf 0) ∧
        ((s.surf 0).buf 0).st = .draining ∧ (s.surf 0).closing = [] ∧ (s.tag 0).kind = .scanoutRead) ∧
    let c := run (send (.close [0])) issuedPart
    ∀ s ∈ [c, c.modSurf 0 (fun su => su.modBuf 0 (fun r => { r with prodWrites := 2 }))],
      s.AtRest ∧ s.device = .running ∧ (s.tag 0).st = .issued ∧ (s.tag 0).surface = some 0 ∧ (s.tag 0).buffer = some 0 ∧
        (s.surf 0).life = .attached ∧ (s.surf 0).lane = [] ∧ (s.surf 0).bufs[0]? = some ((s.surf 0).buf 0) ∧
        ((s.surf 0).buf 0).st = .closing ∧ (s.surf 0).closing = [0] ∧ (s.tag 0).kind = .producerWrite := by
  decide +kernel

/-- Buffer 0 DRAINING with its last part in flight, and a head that waits. -/
def drainAwaited : State := run [.upstreamRequest (put 5 0x800000000 (bytes 8))] (draining 64)

/-- Buffer 1 READY behind buffer 0 SHOWN, or both READY under LATEST, and a head that waits. -/
def flipsAwaited : List State := [waiting, run [.upstreamRequest (put 5 0x800000000 (bytes 8))]
  (run (send (.bindPipe [0, 9, 1])) ((bothReady 0).modSurf 0 (fun su => { su with desc := { su.desc with present := 1 } })))]

theorem test_witness_ResponseFreesTag_waiting :
    let s := drainAwaited
    s.AtRest ∧ s.device = .running ∧ (s.tag 0).st = .issued ∧ (s.tag 0).surface = some 0 ∧ (s.tag 0).buffer = some 0 ∧
      (s.surf 0).life = .attached ∧ (s.surf 0).lane ≠ [] ∧ (s.surf 0).head = .waiting ∧ (s.surf 0).closePending = false ∧
      BuffersSafe (s.surf 0) ∧ ListsSafe (s.surf 0) ∧ (s.tag 0).kind = .scanoutRead := by decide +kernel

theorem test_witness_BoundaryFlips_waiting :
    (∀ s ∈ flipsAwaited, s.AtRest ∧ (s.pipes.get 0).enabled = true ∧ s.fab.onPipe 0 = [0] ∧ BuffersSafe (s.surf 0) ∧
      ListsSafe (s.surf 0) ∧ (s.surf 0).lane ≠ [] ∧ (s.surf 0).head = .waiting ∧ (s.surf 0).closePending = false ∧
      (s.surf 0).desc.holdLimit.toNat = 0 ∧
      ∀ x ∈ (s.surf 0).bufs, x.st = .shown → (s.surf 0).desc.minShow.toNat ≤ min 255 (x.age + 1)) ∧
    flipsAwaited.map (fun s => ((s.surf 0).desc.present, (s.surf 0).present)) = [(0, [1]), (1, [0, 1])] := by
  decide +kernel

/-- The choice that R90 leaves in those states: the DRAINING buffer released, the frame discarded, the frame replaced and the frame
superseded. -/
theorem test_witness_waiting_choices :
    Surface.FirstChoice { drainAwaited.surf 0 with
      bufs := (drainAwaited.surf 0).bufs.mapIdx (fun n x => (if n = 0 then x.counted .scanoutRead else x).tested) } 0 ∧
    Surface.FirstChoice { waiting.surf 0 with
      bufs := (waiting.surf 0).bufs.mapIdx (fun k x => if k ∈ (waiting.surf 0).present then { x with st := x.unused } else x)
      present := [] } 1 ∧
    ∀ s ∈ flipsAwaited, Surface.FirstChoice { s.surf 0 with
      holdWait := 1, present := []
      bufs := (s.surf 0).bufs.mapIdx (fun k x => if k = 1 then { x with st := .shown }
        else if x.st = .shown ∨ k ∈ [0] then { x with st := x.unused } else x) } 0 := by
  refine ⟨firstChoice_only _ 0 (by decide +kernel) (by decide +kernel),
    firstChoice_only _ 1 (by decide +kernel) (by decide +kernel), fun s hs => ?_⟩
  simp only [flipsAwaited, List.mem_cons, List.not_mem_nil, or_false] at hs
  rcases hs with rfl | rfl <;> exact firstChoice_only _ 0 (by decide +kernel) (by decide +kernel)

/-- DETACHING with the last WRITE, a READ, a scanout read, a merge's read and its write, and an orphan's read in flight under tag 0, and
the same in RESETTING. -/
def drains : List (State × OwnerKind) :=
  let l := [(issuedPart, OwnerKind.producerWrite), (run [.upstreamRequest (get 5 0x800000000 4), .grant] attached, .producerRead),
    (run [.upstreamRequest (get 9 0x800000000 64), .grant] shown, .scanoutRead), (merging, .mergeRead),
    (run [.downstreamResponse 0 .okay (bytes 4), .grant] merging, .mergeWrite), (copying, .copyRead)]
  l.map (fun x => (run (send (.detach [0])) x.1, x.2)) ++ l.map (fun x => (run (send (.reset [])) x.1, x.2))

theorem test_witness_Draining :
    (∀ x ∈ drains, x.1.AtRest ∧ (x.1.tag 0).st = .issued ∧ (x.1.tag 0).surface = some 0 ∧ (x.1.tag 0).buffer = some 0 ∧
      (x.1.tag 0).kind = x.2 ∧ x.2 ≠ .pass ∧ (x.1.surf 0).life = .detaching ∧ (x.1.surf 0).closing = [] ∧
      { x.1 with timebase := 1024 }.limit ≠ 0) ∧
    (∀ x ∈ drains, x.2 = .mergeRead ∨ x.2 = .mergeWrite → (x.1.tag 0).route = .merge 0 ∧
      ∃ m ∈ (x.1.surf 0).merges, (x.1.surf 0).merges.find? (fun m => m.id == 0) = some m ∧ m.buf = 0 ∧
        (m.noWrite = true ∨ m.st = .writing)) ∧
    (∀ x ∈ drains, x.2 = .copyRead → (x.1.tag 0).route = .chunk 0 ∧
      ∃ c ∈ x.1.fab.copy.slots, x.1.fab.copy.slots.find? (fun c => c.id == 0) = some c ∧ c.surface = 0 ∧ c.orphan = true) ∧
    drains.map (fun x => decide (x.1.LastOfReset 0)) = List.replicate 6 false ++ List.replicate 6 true := by
  decide +kernel

/-- A pass-through part in flight in RESETTING. -/
theorem test_witness_pass_in_reset :
    let s := run (send (.reset [])) passIssued
    s.AtRest ∧ s.device = .resetting ∧ (s.tag 0).st = .issued ∧ (s.tag 0).kind = .pass ∧ (s.tag 0).surface = none ∧
      (s.tag 0).pipe = none ∧ (s.tag 0).buffer = none ∧ s.LastOfReset 0 ∧ s.limit ≠ 0 := by decide +kernel

/-- R33, R39, R186: the last response ends each drain, with DETACHED in RUNNING and RESET_DONE in RESETTING. -/
theorem test_drains_end :
    drains.map (fun x =>
      let s := run [.downstreamResponse 0 .okay []] x.1
      ((s.surf 0).life, s.device, (s.fab.events.getLast?).map (fun r => r.kind))) =
    List.replicate 6 (Lifecycle.defined, DeviceState.running, some EventKind.detached) ++
      List.replicate 6 (Lifecycle.defined, DeviceState.running, some EventKind.resetDone) := by decide +kernel

/-- R17, R72: a producer READ that begins in the middle of an F24 pixel takes the bytes of its span alone. -/
theorem test_read_inside_pixel :
    let s := run (send (.defineSurface ({ small with format := 2 }.block 0)) ++ send (.attach [0]) ++
      [.upstreamRequest (get 5 0x800000002 3), .grant, .downstreamResponse 0 .okay [1, 2, 3, 4, 5, 6, 7, 8]]) ready
    s.fab.sent = [{ tag := 8, code := .okay, data := [3, 5, 6] }] := by decide +kernel

theorem test_witness_PassThroughAnswered :
    passIssued.AtRest ∧ passIssued.device = .running ∧ (passIssued.tag 0).st = .issued ∧ (passIssued.tag 0).kind = .pass ∧
      (passIssued.tag 0).surface = none ∧ (passIssued.tag 0).upRef = some 0 ∧
      (passIssued.tag 0).route = .bytes 0 (bytes 4).length ∧
      passIssued.fab.records.find? (fun q => q.id == 0) =
        some { id := 0, tag := 8, kind := .read, issued := 1, mark := true, worst := .okay, data := [0, 0, 0, 0] } := by
  decide +kernel

/-- A pass-through WRITE in flight, its record with any result so far, and the first of two parts of a READ. -/
theorem test_witness_PassThroughAnswered_more :
    (∀ w ∈ [Worst.okay, .aborted, .timeout, .fault],
      let s := run [.upstreamRequest (put 5 0x1000 (bytes 4)), .grant] ready
      let s := { s with fab := s.fab.modRecord 0 (fun r => { r with worst := w }) }
      s.AtRest ∧ s.device = .running ∧ (s.tag 0).st = .issued ∧ (s.tag 0).kind = .pass ∧ (s.tag 0).surface = none ∧
        (s.tag 0).upRef = some 0 ∧ (s.tag 0).route = .nowhere ∧
        s.fab.records.find? (fun q => q.id == 0) =
          some { id := 0, tag := 7, kind := .write, issued := 1, mark := true, worst := w, data := [] }) ∧
    (halfIssued.AtRest ∧ (halfIssued.tag 0).st = .issued ∧ (halfIssued.tag 0).upRef = some 0 ∧
      (halfIssued.tag 0).route = .bytes 0 (bytes 2).length ∧
      halfIssued.fab.records =
        [{ id := 0, tag := 8, kind := .read, issued := 1, mark := false, worst := .okay, data := [0, 0, 0, 0] }]) := by
  decide +kernel

/-- The merge of `merging`. -/
def theMerge : Merge :=
  { id := 0, buf := 0, addr := 0x100000, bytes := [some 0x5A, none, none, none], st := .reading, noWrite := false,
    formed := none, presented := none }

theorem test_witness_MergeReadEnds :
    let s := { merging with timebase := 1024 }
    s.InFlight 0 0 theMerge.buf ((s.surf 0).buf 0) ∧ (s.tag 0).kind = .mergeRead ∧
      (s.tag 0).route = .merge theMerge.id ∧ (s.surf 0).merges = theMerge :: [] ∧ theMerge.st = .reading ∧
      theMerge.noWrite = false ∧ theMerge.formed = none ∧ (bytes 4).length = 4 ∧ s.Expired 0 := by
  unfold State.InFlight State.Expired; decide +kernel

/-- The merge's write in flight under tag 0. -/
theorem test_witness_MergeReadEnds_write :
    let s := run [.downstreamResponse 0 .okay (bytes 4), .grant] merging
    s.InFlight 0 0 theMerge.buf ((s.surf 0).buf 0) ∧ (s.tag 0).kind = .mergeWrite ∧
      (s.tag 0).route = .merge theMerge.id ∧
      ∃ m ∈ (s.surf 0).merges, m.st = .writing ∧ m.id = theMerge.id ∧ m.buf = theMerge.buf ∧
        (s.surf 0).merges.find? (fun x => x.id == m.id) = some m := by
  unfold State.InFlight; decide +kernel

/-- Stripe 0 copied and written, with the copy read of stripe 1 in flight under tag 1. -/
def copyLeft : State :=
  run [.grant, .downstreamResponse 0 .okay (bytes 16), .grant, .downstreamResponse 0 .okay [], .grant] copying

/-- The chunk of `copyLeft` whose read is issued. -/
def theChunk : Chunk :=
  { id := 1, surface := 0, source := 0, target := 1, stripe := 1, srcAddr := 0x100040, tgtAddr := 0x200040, len := 16,
    phase := .reading, data := [], orphan := false }

theorem test_witness_CopyReadHeld :
    let s := copyLeft
    s.InFlight 1 theChunk.surface theChunk.source ((s.surf 0).buf 0) ∧ (s.tag 1).kind = .copyRead ∧
      (s.tag 1).route = .chunk theChunk.id ∧
      s.fab.copy.slots.find? (fun x => x.id == theChunk.id) = some theChunk ∧ theChunk.orphan = false ∧
      (bytes 16).length = theChunk.len := by
  unfold State.InFlight; decide +kernel

/-- The write of that chunk issued under tag 1, the last of its stripe and of the job. -/
def copyWriting : State := run [.downstreamResponse 1 .okay (bytes 16), .grant] copyLeft

/-- The same with stripe `k` of the job changed. -/
def copyWritingWith (k : Nat) (g : StripeRec → StripeRec) : State :=
  { copyWriting with fab := copyWriting.fab.modJob 0 1 (fun j => j.modStripe k g) }

/-- The target CLOSING, and with a CLOSING buffer behind it that a DEFERRED job targets. -/
def copyClosing : List State :=
  let s := run (.downstreamResponse 0 .okay [] :: send (.close [0])) copyWriting
  [s, { s with fab := s.fab.modSurf 0 (fun su => { su with
      closing := [1, 0], deferred := [newJob 0 1 0 [0]], bufs := su.bufs.modify 0 (fun x => { x with st := .closing }) }) }]

/-- The end of a chunk under tag 1: a write that ends the job, the last of its stripe with stripe 0 not DONE, and one of two chunks of
its stripe; a write into a CLOSING target; and a read that fails. -/
theorem test_witness_CopyReadHeld_ends :
    (∀ s ∈ [copyWriting, copyWritingWith 0 (fun x => { x with st := .copying }),
        copyWritingWith 1 (fun x => { x with chunks := 2 }), copyLeft] ++ copyClosing,
      s.AtRest ∧ s.device = .running ∧ (s.tag 1).st = .issued ∧ (s.tag 1).surface = some 0 ∧ (s.tag 1).route = .chunk 1 ∧
        ((s.tag 1).kind = .copyWrite ∧ (s.tag 1).buffer = some 1 ∨ (s.tag 1).kind = .copyRead ∧ (s.tag 1).buffer = some 0) ∧
        { s with timebase := 1024 }.AtRest ∧ { s with timebase := 1024 }.Expired 1 ∧
        (s.surf 0).life = .attached ∧ (s.surf 0).lane = [] ∧ (s.surf 0).bufs[0]? = some ((s.surf 0).buf 0) ∧
        (s.surf 0).bufs[1]? = some ((s.surf 0).buf 1) ∧
        (∃ ch ∈ s.fab.copy.slots, s.fab.copy.slots.find? (fun c => c.id == 1) = some ch ∧ ch.id = 1 ∧ ch.surface = 0 ∧
          ch.source = 0 ∧ ch.target = 1 ∧ ch.stripe = 1 ∧ ch.orphan = false) ∧
        ∃ j ∈ s.fab.copy.queue, s.fab.jobOf 0 1 = some j ∧ j.source = 0 ∧ (j.stripes.map (fun y => y.stripe)).Nodup ∧
          ∃ x ∈ j.stripes, x.stripe = 1 ∧ x.st = .copying) ∧
    copyWriting.fab.copy.current = none ∧ (copyWriting.surf 0).closing = [] ∧ ((copyWriting.surf 0).buf 1).st = .filling ∧
    copyClosing.map (fun s => ((s.surf 0).closing, ((s.surf 0).buf 1).st, (s.fab.jobOf 0 0).isSome)) =
      [([1], .closing, false), ([1, 0], .closing, true)] := by
  unfold State.Expired; decide +kernel

/-- R146, R99: the end of the job makes its CLOSING target READY, and R147: a failed write damages it with COPY_FAULT before. -/
theorem test_job_end_readies_target :
    copyClosing.map (fun s =>
      let t := run [.downstreamResponse 1 .error []] s
      (((t.surf 0).buf 1).st, (t.surf 0).present, ((t.fab.events.drop s.fab.events.length).map (fun r => (r.kind, r.detail))))) =
    List.replicate 2 (.ready, [1], [(.copyFault, 1), (.frameReady, 1)]) := by decide +kernel

/-- Stripe 0 with its last chunk being written under tag 0, and the head waiting for it: a head of one stripe and one of both. -/
def stripeAwaited : List State :=
  [0x800000000, 0x80000000C].map (fun a => run [.upstreamRequest (put 5 a (bytes 8)), .grant, .downstreamResponse 0 .okay (bytes 16),
    .grant] (run (send (.bindPipe [0, 9, 1]) ++ send (.defineSurface ({ small with flags := 4 }.block 0)) ++ send (.attach [0]) ++
      [.upstreamRequest (put 5 0x800000000 (bytes 8)), .grant, .downstreamResponse 0 .okay []] ++ send (.close [0]) ++
      [.boundary 0 none]) ready))

theorem test_witness_CopyReadHeld_awaited :
    (∀ s ∈ stripeAwaited, s.AtRest ∧ s.device = .running ∧ (s.tag 0).st = .issued ∧ (s.tag 0).surface = some 0 ∧
      (s.tag 0).buffer = some 1 ∧ (s.tag 0).kind = .copyWrite ∧ (s.tag 0).route = .chunk 0 ∧ (s.surf 0).life = .attached ∧
      (s.surf 0).lane.length = 1 ∧ (s.surf 0).bufs[1]? = some ((s.surf 0).buf 1) ∧ ((s.surf 0).buf 1).st = .filling ∧
      (s.surf 0).closing = [] ∧ (s.surf 0).mergeOutstanding = false ∧ s.fab.copy.current = none ∧
      (∃ ch ∈ s.fab.copy.slots, s.fab.copy.slots.find? (fun c => c.id == 0) = some ch ∧ ch.id = 0 ∧ ch.surface = 0 ∧
        ch.target = 1 ∧ ch.stripe = 0 ∧ ch.orphan = false) ∧
      ∃ j ∈ s.fab.copy.queue, s.fab.jobOf 0 1 = some j ∧ j.stripes.map (fun y => (y.stripe, y.st, y.chunks)) =
        [(0, .copying, 1), (1, .copying, 1)]) ∧
    stripeAwaited.map (fun s => match (s.surf 0).head with | .mapped m => (m.buf, m.stripes) | _ => (9, [])) =
      [(1, [0]), (1, [0, 1])] := by decide +kernel

/-- R145: answered, the write lets the first head be bound, and the second goes on waiting. -/
theorem test_stripe_done :
    stripeAwaited.map (fun s => ((run [.downstreamResponse 0 .okay []] s).surf 0).headBound) = [true, false] := by decide +kernel

/-- Surface 0 with a job from buffer 0 to buffer 1 QUEUED and one from buffer 1 to buffer 2 DEFERRED, every stripe PENDING, and this
head. -/
def selecting (head : HeadPhase) : Fabric :=
  ({ Fabric.reset with copy := { queue := [newJob 0 0 1 [0, 1]], current := none, slots := [], nextChunk := 0 } }).modSurf 0
    (fun su => { su with
      life := .attached, desc := { small with height := 40 }, head := head, lane := [{ id := 3, req := put 5 0 (bytes 4) }]
      deferred := [newJob 0 1 2 [1]], bufs := [BufRec.fresh 0 0x100000, BufRec.fresh 1 0x200000, BufRec.fresh 2 0x300000] })

/-- Heads that wait on stripes 1 and 0 of the QUEUED job, in this order, and on stripe 1 of the DEFERRED one. -/
def awaitingHead (b : Nat) (stripes : List Nat) : HeadPhase := .mapped { buf := b, stripes := stripes, plan := .direct [] }

/-- R139: the three ways of a selection. -/
theorem test_witness_CopyReadHeld_selects :
    (selecting (awaitingHead 1 [1, 0])).Selects (newJob 0 0 1 [0, 1]) 1 ∧
      (selecting (awaitingHead 2 [1])).Selects (newJob 0 0 1 [0, 1]) 0 ∧
      (selecting .waiting).Selects (newJob 0 0 1 [0, 1]) 0 := by
  have one : ∀ (f : Fabric) (j : CopyJob), f.copy.queue = [j] → f.copy.queue = [] ++ j :: [] := fun _ _ h => h
  refine ⟨⟨[], [], one _ _ rfl, ⟨by decide +kernel, 0, by decide +kernel⟩, .inl ⟨⟨_, rfl, 1, by decide +kernel, _, rfl, by decide +kernel⟩,
      by simp, by simp, ?_⟩⟩,
    ⟨[], [], one _ _ rfl, ⟨by decide +kernel, 0, by decide +kernel⟩, .inl ⟨⟨_, rfl, 1, by decide +kernel, _, rfl, by decide +kernel⟩,
      by simp, by simp, ?_⟩⟩,
    ⟨[], [], one _ _ rfl, ⟨by decide +kernel, 0, by decide +kernel⟩, .inr ⟨?_, by simp, by decide +kernel, fun k _ => Nat.zero_le k⟩⟩⟩
  · rintro m h
    cases h
    exact ⟨fun _ => ⟨[], [0], rfl, ⟨_, rfl, by decide +kernel⟩, by simp⟩, fun h => absurd rfl h⟩
  · rintro m h
    cases h
    exact ⟨fun h => absurd h (by decide), fun _ => ⟨by decide +kernel, fun k _ => Nat.zero_le k⟩⟩
  · rintro q hq - ⟨m, h, -⟩
    obtain rfl : q = newJob 0 0 1 [0, 1] := by simpa [selecting, Fabric.modSurf] using hq
    cases h

/-- Log 30: the head of surface 0 waits on the DEFERRED job, and no stripe of the QUEUED job is PENDING. The job of surface 1 is taken,
though no head waits on it. -/
theorem test_select_passes_over :
    let started := (newJob 0 0 1 [0]).modStripe 0 (fun r => { r with st := .copying })
    let f := selecting (awaitingHead 2 [1])
    ({ f with copy := { f.copy with queue := [started, newJob 1 0 1 [0]] } } : Fabric).select.copy.current.map
      (fun (c : CurrentStripe) => (c.surface, c.stripe)) = some (1, 0) := by decide +kernel

/-- R139, R141, R142: what the engine then does: stripe 1 is selected, and in each of its two rows of 16 bytes one chunk is read; stripe
0 follows, until the four slots are taken. -/
theorem test_engine_runs :
    let f := Fabric.runEngine 5 (selecting (awaitingHead 1 [1, 0]))
    f.copy.slots.map (fun c => (c.stripe, c.srcAddr, c.tgtAddr, c.len)) =
      [(1, 0x100080, 0x200080, 16), (1, 0x1000C0, 0x2000C0, 16), (0, 0x100000, 0x200000, 16), (0, 0x100040, 0x200040, 16)] ∧
    f.copy.current = none := by decide +kernel

/-- R141, worked by hand: stored row 3 of 1200 bytes begins E40h above a multiple of 4096; it is cut by the length, by the address, by the
length twice, and at its end. -/
theorem test_row_in_chunks :
    let su : Surface := { Surface.empty with
      desc := { small with width := 300, height := 40, pitch := 19 }, bufs := [BufRec.fresh 0 0x100000, BufRec.fresh 1 0x200000] }
    [0, 256, 448, 704, 960].map (fun off => (su.chunkAt 0 0 0 1 1 3 off).len) = [256, 192, 256, 256, 240] ∧
      (su.chunkAt 0 0 0 1 1 3 448).srcAddr = 0x101000 ∧ (su.chunkAt 0 0 0 1 1 3 448).tgtAddr = 0x201000 := by decide +kernel

/-- R146: with that write answered the job is gone and the source released from its hold. -/
theorem test_job_ends :
    let s := run [.downstreamResponse 1 .okay []] copyWriting
    s.fab.copy.queue = [] ∧ s.fab.copy.slots = [] ∧ ((copyWriting.surf 0).buf 0).hold = true ∧
      ((s.surf 0).buf 0).hold = false := by decide +kernel

theorem test_witness_LateResponseDiscarded : quarantined.AtRest ∧ (quarantined.tag 0).st = .quarantined := by decide +kernel

theorem test_witness_TagExpires :
    (let s := { issuedPart with timebase := 1024 }
     s.Expired 0 ∧ s.device = .running) ∧
    (let s := { issuedPart with timebase := 1023 }
     ¬ s.Expired 0 ∧ ¬ issuedPart.Expired 1) ∧
    (let s := { passIssued with timebase := 1024 }
     s.Expired 0 ∧ s.device = .running ∧ s.AtRest ∧ (s.tag 0).kind = .pass ∧ (s.tag 0).surface = none ∧
       (s.tag 0).pipe = none ∧ (s.tag 0).buffer = none ∧ (s.tag 0).upRef = some 0 ∧
       s.fab.records.find? (fun q => q.id == 0) =
         some { id := 0, tag := 8, kind := .read, issued := 1, mark := true, worst := .okay, data := [0, 0, 0, 0] }) ∧
    ∀ x ∈ inFlights,
      let s := { x.1 with timebase := 1024 }
      s.InFlight 0 0 0 ((s.surf 0).buf 0) ∧ s.Expired 0 ∧ (s.tag 0).kind = x.2 ∧
        ∃ p ∈ s.fab.records, (s.tag 0).upRef = some p.id ∧ s.fab.records.find? (fun q => q.id == p.id) = some p ∧
          1 ≤ p.issued := by
  unfold State.InFlight State.Expired; decide +kernel

theorem test_witness_BoundaryDelivered :
    (attached.pipes.get 1).enabled = false ∧ (attached.pipes.get 0).enabled = true ∧ (attached.surf 0).life = .attached ∧
      (attached.surf 0).desc.pipeIndex = 0 := by decide +kernel

/-- Two buffers READY under LATEST. -/
def latestReady : State :=
  run (send (.bindPipe [0, 9, 1])) ((bothReady 0).modSurf 0 (fun su => { su with desc := { su.desc with present := 1 } }))

/-- The surface of a state with close on boundary. -/
def closing (s : State) : State := s.modSurf 0 (fun su => { su with desc := { su.desc with flags := 2 } })

/-- LATEST, no flip for want of a READY buffer and for the minimum show, and close on boundary of a touched fill, of one behind a
bound head, and of an untouched one. -/
theorem test_witness_BoundaryFlips_more :
    (∀ s ∈ [latestReady, shown, closing filling, closing bound,
        closing (run [.upstreamRequest (put 5 0x800000010 (bytes 4))] filling)],
      s.AtRest ∧ (s.pipes.get 0).enabled = true ∧ s.fab.onPipe 0 = [0] ∧ BuffersSafe (s.surf 0) ∧ ListsSafe (s.surf 0)) ∧
    ((latestReady.surf 0).lane = [] ∧ (latestReady.surf 0).head = .fresh ∧ (latestReady.surf 0).desc.present = 1 ∧
      (latestReady.surf 0).desc.flags.getLsbD 1 = false ∧ (latestReady.surf 0).present = [0] ++ [1] ∧
      (latestReady.surf 0).bufs[1]? = some ((latestReady.surf 0).buf 1) ∧
      ∀ x ∈ (latestReady.surf 0).bufs, x.st ≠ .shown) ∧
    ((shown.surf 0).lane = [] ∧ (shown.surf 0).head = .fresh ∧ (shown.surf 0).desc.flags.getLsbD 1 = false ∧
      ((shown.surf 0).buf 0).st = .shown ∧ (shown.surf 0).present = []) ∧
    (let s := flippable.modSurf 0 (fun su => { su with desc := { su.desc with minShow := 4 } })
     s.AtRest ∧ ((s.surf 0).buf 0).st = .shown ∧ (s.surf 0).present = [1] ∧
       min 255 (((s.surf 0).buf 0).age + 1) < (s.surf 0).desc.minShow.toNat) ∧
    (let su := (closing filling).surf 0
     su.desc.flags.getLsbD 1 = true ∧ su.lane = [] ∧ su.head = .fresh ∧ su.closing = [] ∧ (su.buf 0).st = .filling ∧
       (su.buf 0).touched = true) ∧
    (let su := (closing (run [.upstreamRequest (put 5 0x800000010 (bytes 4))] filling)).surf 0
     su.lane ≠ [] ∧ su.headBound = true ∧ (su.buf 0).st = .filling ∧ (su.buf 0).touched = true) ∧
    (let su := (closing bound).surf 0
     (su.buf 0).st = .filling ∧ (su.buf 0).touched = false) := by decide +kernel

/-- R118, R122: the older of two READY frames is skipped, with its record before the FLIP. -/
theorem test_latest_skips :
    let s := run [.boundary 0 none] latestReady
    ((s.fab.events.drop 2).map (fun r => (r.kind, r.buffer, r.seq))) = [(.frameSkipped, 0, 1), (.flip, 1, 2)] ∧
      (s.surf 0).present = [] ∧ ((s.surf 0).buf 0).st = .free := by decide +kernel

/-- A touched fill with close on boundary whose lane head is mapped and waits for a merge: without a READY buffer, and with a frame shown
too short. -/
def boundaryMapped : List State :=
  let w := fun a n => Instr.upstreamRequest (put 5 (0x800000000 + a) (bytes n))
  let s := closing (run [w 0 8, .grant, .downstreamResponse 0 .okay [], w 0 1, w 4 1, w 16 8] attached)
  [s, closing (run [w 0 8, .grant, .downstreamResponse 0 .okay [], w 0 1, w 4 1, w 16 8]
    (shown.modSurf 0 (fun su => { su with desc := { su.desc with minShow := 4 } })))]

theorem test_witness_BoundaryFlips_mapped :
    (∀ s ∈ boundaryMapped, s.AtRest ∧ (s.pipes.get 0).enabled = true ∧ s.fab.onPipe 0 = [0] ∧ BuffersSafe (s.surf 0) ∧
      ListsSafe (s.surf 0) ∧ (s.surf 0).desc.flags.getLsbD 1 = true ∧ (s.surf 0).lane ≠ [] ∧
      isMapped (s.surf 0).head = true ∧ (s.surf 0).closing = [] ∧ (s.surf 0).present = [] ∧
      ∃ b ∈ [0, 1], ((s.surf 0).buf b).st = .filling ∧ ((s.surf 0).buf b).touched = true) ∧
    boundaryMapped.map (fun s => (run [.boundary 0 none] s).fab.surf 0 |>.frameCounter) = [1, 2] := by decide +kernel

theorem test_witness_BoundaryFlips :
    flippable.AtRest ∧ (flippable.pipes.get 0).enabled = true ∧ flippable.fab.onPipe 0 = [0] ∧
      (flippable.surf 0).lane = [] ∧ (flippable.surf 0).head = .fresh ∧ (flippable.surf 0).desc.present = 0 ∧
      (flippable.surf 0).desc.closeOnBoundary = false ∧ BuffersSafe (flippable.surf 0) ∧
      (flippable.surf 0).present = [1] ∧ (flippable.surf 0).bufs[1]? = some ((flippable.surf 0).buf 1) ∧
      ((flippable.surf 0).buf 1).st = .ready ∧ (∃ x ∈ (flippable.surf 0).bufs, x.st = .shown) ∧
      ∀ x ∈ (flippable.surf 0).bufs, x.st = .shown →
        (flippable.surf 0).desc.minShow.toNat ≤ min 255 (x.age + 1) := by decide +kernel

theorem test_witness_HoldLimitExpires :
    (∀ s ∈ [heldAt 0, heldAt 1, reachedHold], s.AtRest ∧ (s.surf 0).life = .attached ∧ (s.surf 0).head = .waiting ∧
      (s.surf 0).lane ≠ [] ∧ ((s.surf 0).lane.map (fun q => q.id)).Nodup ∧
      (∀ q ∈ (s.surf 0).lane, (s.fab.records.find? (fun x => x.id == q.id)).map (fun r => r.tag) = some q.req.tag) ∧
      (s.pipes.get 0).enabled = true ∧ s.fab.onPipe 0 = [0] ∧ (s.surf 0).present = [] ∧ BuffersSafe (s.surf 0)) ∧
    (reachedHold.surf 0).holdReached = true ∧ ((heldAt 1).surf 0).holdReached = false ∧
    ((heldAt 0).surf 0).desc.holdLimit.toNat = 2 ∧ ((heldAt 0).surf 0).holdWait = 0 ∧
    ((heldAt 1).surf 0).holdWait = 1 := by decide +kernel

/-- R38, R94: a hold limit lowered to the counter is not reached before the next increment, which expires the lane. -/
theorem test_lowered_limit_waits :
    let s := run (send (.setPolicy [0, 0, 1, 0, 1])) (heldAt 1)
    ((run [.holdLimitExpiry 0] s).surf 0).lane ≠ [] ∧ ((run [.boundary 0 none] s).surf 0).lane = [] := by decide +kernel

/-- R130: two reads between the flip and the latch both find the new buffer. -/
theorem test_two_reads_between :
    (run [.boundary 0 (some { latchFirst := false, requests := [get 9 0x800000000 64, get 9 0x800000000 64] })]
      flippable).fab.scanQ.map (fun e => e.target) = [some 1, some 1] := by decide +kernel

end Sys2Proof.Tests
end

/-! # The surface commands DEFINE_SURFACE, READ_SURFACE and ERASE (R26, R27, R34) -/

namespace Sys2Proof.Machine

/-! ## Lifecycle states and the surface after hard reset -/

theorem Lifecycle.live_iff {l : Lifecycle} : l.live = true ↔ l = .attached ∨ l = .detaching := by
  cases l <;> simp [Lifecycle.live]

theorem Lifecycle.not_live_iff {l : Lifecycle} : l.live = false ↔ l = .empty ∨ l = .defined := by
  cases l <;> simp [Lifecycle.live]

@[simp] theorem State.surf_reset (i : Fin 8) : State.reset.surf i = Surface.empty := by
  simp [State.surf, Fabric.surf, State.reset, Fabric.reset, vectorGet]

/-- A change of a surface puts in its place what the change makes of it as it stands. -/
theorem State.modSurf_eq_const (s : State) (i : Fin 8) (g : Surface → Surface) :
    s.modSurf i g = s.modSurf i (fun _ => g (s.surf i)) := rfl

/-! ## Classification reads live surfaces only (R7) -/

theorem Fabric.live_of_mem_met {f : Fabric} {r : UpRequest} {k : Fin 8} (h : k ∈ f.met r) :
    (f.surf k).life.live = true := by
  have hk := (List.mem_filter.mp h).2
  exact (Bool.and_eq_true_iff.mp hk).1

/-- A surface that has no live aperture before and after a change is met by no request either way. -/
theorem Fabric.met_modSurf_of_not_live (f : Fabric) {i : Fin 8} {g : Surface → Surface}
    (hl : (f.surf i).life.live = false) (hg : (g (f.surf i)).life.live = false) (r : UpRequest) :
    (f.modSurf i g).met r = f.met r := by
  refine List.filter_congr fun k _ => ?_
  by_cases hk : i = k
  · subst hk; simp [hl, hg]
  · simp [hk]

/-- R7, R26: what a surface without a live aperture holds has no effect on the class of any request. -/
theorem Fabric.classify_modSurf_of_not_live (f : Fabric) (env : Env) {i : Fin 8} {g : Surface → Surface}
    (hl : (f.surf i).life.live = false) (hg : (g (f.surf i)).life.live = false) (r : UpRequest) :
    (f.modSurf i g).classify env r = f.classify env r := by
  have hmet := f.met_modSurf_of_not_live hl hg r
  have hsurf : ∀ k ∈ f.met r, (f.modSurf i g).surf k = f.surf k := by
    intro k hk
    have hne : i ≠ k := by
      rintro rfl
      rw [Fabric.live_of_mem_met hk] at hl
      cases hl
    exact f.surf_modSurf_other g hne
  unfold Fabric.classify
  rw [hmet]
  match h : f.met r with
  | [] => rfl
  | [k] => simp only [hsurf k (by simp [h])]
  | _ :: _ :: _ => rfl

/-! ## What each command does to the surface it names -/

theorem applyDefineSurface_of_not_live (s : State) {params : List Byte} {i : Fin 8}
    (hi : (byteAt params 0).toNat = i.val) (hl : (s.surf i).life.live = false) :
    applyDefineSurface params s =
      (s.modSurf i (fun su => { su with life := .defined, desc := Descriptor.ofBlock params })).done := by
  rw [applyDefineSurface, s.named_of_eq hi]
  rcases Lifecycle.not_live_iff.mp hl with h | h <;> simp only [h]

theorem applyDefineSurface_of_live (s : State) {params : List Byte} {i : Fin 8}
    (hi : (byteAt params 0).toNat = i.val) (hl : (s.surf i).life.live = true) :
    applyDefineSurface params s = s.failed .badState := by
  rw [applyDefineSurface, s.named_of_eq hi]
  rcases Lifecycle.live_iff.mp hl with h | h <;> simp only [h]

theorem applyReadSurface_of_empty (s : State) {params : List Byte} {i : Fin 8}
    (hi : (byteAt params 0).toNat = i.val) (hl : (s.surf i).life = .empty) :
    applyReadSurface params s = s.okWith [0] := by
  rw [applyReadSurface, s.named_of_eq hi]
  simp [hl, Lifecycle.code]

theorem applyErase_of_defined (s : State) {params : List Byte} {i : Fin 8}
    (hi : (byteAt params 0).toNat = i.val) (hl : (s.surf i).life = .defined) :
    applyErase params s = (s.modSurf i (fun _ => Surface.empty)).done := by
  rw [applyErase, s.named_of_eq hi]
  simp only [hl]

theorem applyErase_of_empty (s : State) {params : List Byte} {i : Fin 8}
    (hi : (byteAt params 0).toNat = i.val) (hl : (s.surf i).life = .empty) :
    applyErase params s = s.done := by
  rw [applyErase, s.named_of_eq hi]
  simp only [hl]

theorem applyErase_of_live (s : State) {params : List Byte} {i : Fin 8}
    (hi : (byteAt params 0).toNat = i.val) (hl : (s.surf i).life.live = true) :
    applyErase params s = s.failed .badState := by
  rw [applyErase, s.named_of_eq hi]
  rcases Lifecycle.live_iff.mp hl with h | h <;> simp only [h]

/-! ## The three rows of the table, taken in RUNNING -/

theorem exec_defineSurface {s : State} {params : List Byte} (ht : s.Takes 0x10 params) (hd : s.device = .running)
    (hn : params.length = 66) :
    exec (.defineSurface params) s = .next (State.answer (applyDefineSurface params s)) :=
  exec_row_running (c := .defineSurface) ht (by simp [Command.lengthFits, hn]) hd

theorem exec_readSurface {s : State} {p : Byte} (ht : s.Takes 0x11 [p]) (hd : s.device = .running) :
    exec (.readSurface [p]) s = .next (State.answer (applyReadSurface [p] s)) :=
  exec_row_running (c := .readSurface) ht rfl hd

theorem exec_erase {s : State} {p : Byte} (ht : s.Takes 0x14 [p]) (hd : s.device = .running) :
    exec (.erase [p]) s = .next (State.answer (applyErase [p] s)) :=
  exec_row_running (c := .erase) ht rfl hd

/-- R26: DEFINE_SURFACE of a surface that is EMPTY or DEFINED. -/
theorem exec_defineSurface_of_not_live {s : State} {params : List Byte} {i : Fin 8} (ht : s.Takes 0x10 params)
    (hd : s.device = .running) (hn : params.length = 66) (hi : (byteAt params 0).toNat = i.val)
    (hl : (s.surf i).life.live = false) :
    exec (.defineSurface params) s = .next
      ((s.modSurf i (fun su => { su with life := .defined, desc := Descriptor.ofBlock params })).replied .ok []) := by
  rw [exec_defineSurface ht hd hn, applyDefineSurface_of_not_live s hi hl, State.answer_done]

/-! ## The obligations -/

/-- Settles O24: DEFINE_SURFACE acts exactly on a surface without a live aperture, which no classification reads. -/
theorem defineSurfaceStores : Obligations.DefineSurfaceStores := by
  intro s i params ht hd hn hi
  constructor
  · intro h
    have hl : (s.surf i).life.live = false := Lifecycle.not_live_iff.mpr h
    exact ⟨exec_defineSurface_of_not_live ht hd hn hi hl,
      fun r => s.fab.classify_modSurf_of_not_live s.env hl rfl r⟩
  · intro h
    rw [exec_defineSurface ht hd hn, applyDefineSurface_of_live s hi (Lifecycle.live_iff.mpr h), State.answer_failed]

/-- Settles O29: the four lifecycle states of ERASE, and the two commands that find the surface as after hard reset. -/
theorem eraseEmpties : Obligations.EraseEmpties := by
  intro s i p hd hi
  have hp : (byteAt [p] 0).toNat = i.val := hi
  constructor
  · intro ht
    rw [exec_erase ht hd]
    refine ⟨fun h => ?defined, fun h => ?empty, fun h => ?live⟩
    case defined => rw [applyErase_of_defined s hp h, State.answer_done, State.surf_reset]
    case empty => rw [applyErase_of_empty s hp h, State.answer_done]
    case live => rw [applyErase_of_live s hp (Lifecycle.live_iff.mpr h), State.answer_failed]
  · intro hr
    have he : (s.surf i).life = .empty := by rw [hr, State.surf_reset]; rfl
    constructor
    · intro ht
      rw [exec_readSurface ht hd, applyReadSurface_of_empty s hp he, State.answer_okWith]
    · intro params ht hn hb
      rw [exec_defineSurface_of_not_live ht hd hn (hb ▸ hi) (Lifecycle.not_live_iff.mpr (.inl he)),
        State.modSurf_eq_const, hr]

end Sys2Proof.Machine

/-! # The control link: the layout of a response and IDENT (R177, R178, R181) -/

namespace Sys2Proof.Machine

/-! ## The bytes of a response (R177) -/

/-- The two leading bytes and the data stand in front; the check byte is that of all of them. -/
theorem Reply.frame_eq (r : Reply) :
    r.frame = r.status.code :: BitVec.ofNat 8 r.data.length ::
      (r.data ++ [checkByte (r.status.code :: BitVec.ofNat 8 r.data.length :: r.data)]) := rfl

@[simp] theorem Reply.length_frame (r : Reply) : r.frame.length = r.data.length + 3 := by
  simp [Reply.frame_eq]

@[simp] theorem Reply.byteAt_frame_zero (r : Reply) : byteAt r.frame 0 = r.status.code := rfl

@[simp] theorem Reply.byteAt_frame_one (r : Reply) : byteAt r.frame 1 = BitVec.ofNat 8 r.data.length := rfl

theorem Reply.byteAt_frame_data (r : Reply) {k : Nat} (h : k < r.data.length) :
    byteAt r.frame (k + 2) = byteAt r.data k := by
  rw [Reply.frame_eq]
  exact List.getD_append r.data _ 0 k h

@[simp] theorem Reply.byteSum_frame (r : Reply) : byteSum r.frame = 0 := byteSum_check _

/-! ## Commands that every device state admits (R176, R180) -/

/-- R176, test 4, refuses no command that RESETTING admits. -/
theorem runCommand_apply_of_inResetting {c : Command} {params : List Byte} {s : State}
    (hl : c.lengthFits params = true) (hr : c.inResetting = true) : runCommand c params s = c.apply params s := by
  simp [runCommand, hl, hr]

/-- A message of a fitting length whose command RESETTING admits, in either device state. -/
theorem exec_row_inResetting {c : Command} {params : List Byte} {s : State} (h : s.Takes c.code params)
    (hl : c.lengthFits params = true) (hr : c.inResetting = true) :
    exec (c.row params) s = .next (State.answer (c.apply params s)) := by
  rw [exec_row, State.command_of_takes s h, runCommand_apply_of_inResetting hl hr]

/-- R181: what IDENT leaves behind, whatever the device state. -/
theorem exec_ident {s : State} (ht : s.Takes 0x01 []) : exec (.ident []) s = .next (s.replied .ok identData) :=
  exec_row_inResetting (c := .ident) ht rfl rfl

/-- R181: the check byte F1h of the IDENT response. -/
theorem checkByte_ident : checkByte [0x00, 0x04, 0xD4, 0x10, 0x24, 0x03] = 0xF1 := by decide

/-! ## The obligations of the response layout and of IDENT -/

/-- Settles O14: the framing of a reply byte by byte; a length of at most 255 is kept whole by the length byte. -/
theorem responseLaidOut : Obligations.ResponseLaidOut := by
  intro st data hlen
  refine ⟨Reply.length_frame _, ?status, ?length, ?data, Reply.byteSum_frame _⟩
  case status =>
    rw [Reply.byteAt_frame_zero]
    cases st <;> rfl
  case length =>
    rw [Reply.byteAt_frame_one, BitVec.toNat_ofNat]
    exact Nat.mod_eq_of_lt (Nat.lt_succ_of_le hlen)
  case data => exact fun k hk => Reply.byteAt_frame_data _ hk

/-- Settles O22: the row of IDENT in either device state, and the bytes of its response. -/
theorem identAnswered : Obligations.IdentAnswered := by
  intro s ht
  refine ⟨exec_ident ht, ?response⟩
  case response =>
    rw [Reply.frame_eq]
    exact congrArg ([0x00, 0x04, 0xD4, 0x10, 0x24, 0x03] ++ [·]) checkByte_ident

end Sys2Proof.Machine

/-! # What the operations of the fabric keep: the relation that the step invariants rest on -/

namespace Sys2Proof.Machine

set_option Elab.async false

/-- Two changes of a surface are one. -/
theorem Fabric.modSurf_modSurf (f : Fabric) (i : Fin 8) (g h : Surface → Surface) :
    (f.modSurf i g).modSurf i h = f.modSurf i (fun su => h (g su)) := by
  unfold Fabric.modSurf
  rw [show Fabric.surf { f with surfaces := f.surfaces.set i.val (g (f.surf i)) i.isLt } i = g (f.surf i) from
    f.surf_modSurf_same i g]
  simp only [Vector.set_set]

theorem Fabric.modSurf_congr (f : Fabric) (i : Fin 8) {g h : Surface → Surface} (e : g (f.surf i) = h (f.surf i)) :
    f.modSurf i g = f.modSurf i h := by
  unfold Fabric.modSurf; rw [e]

/-! ## Buffer states -/

/-- The states of a surface's buffer records, by index. -/
def Surface.states (su : Surface) : List BufState := su.bufs.map (·.st)

theorem Surface.countIn_eq (su : Surface) (x : BufState) : su.countIn x = su.states.count x := by
  rw [Surface.states, List.count, List.countP_map]
  exact List.countP_congr fun r _ => by simp

theorem Surface.states_getElem? (su : Surface) (b : Nat) : su.states[b]? = (su.bufs[b]?).map (·.st) := by
  rw [Surface.states, List.getElem?_map]

/-- The buffer invariant speaks of the states and of the head alone. -/
theorem buffersSafe_iff {su : Surface} :
    BuffersSafe su ↔ su.states.count .filling ≤ 1 ∧ su.states.count .shown ≤ 1 ∧
      (su.head = .waiting → su.states.count .filling = 0) := by
  simp only [BuffersSafe, Surface.countIn_eq]

/-- The list invariant speaks of the states and of the two lists alone. -/
theorem listsSafe_iff {su : Surface} :
    ListsSafe su ↔ su.present.Nodup ∧ su.closing.Nodup ∧ (∀ b ∈ su.present, su.states[b]? = some .ready) ∧
      ∀ b ∈ su.closing, su.states[b]? = some .closing := by
  simp only [ListsSafe, Surface.states_getElem?]

theorem Surface.states_modBuf (su : Surface) (b : Nat) {g : BufRec → BufRec} (h : ∀ r, (g r).st = r.st) :
    (su.modBuf b g).states = su.states := by
  apply List.ext_getElem?
  intro k
  rw [Surface.states_getElem?, Surface.states_getElem?, Surface.bufs_modBuf]
  split
  · rw [Option.map_map]; congr 1; funext r; exact h r
  · rfl

theorem Surface.states_modBuf_set (su : Surface) (b : Nat) {g : BufRec → BufRec} {x : BufState} (h : ∀ r, (g r).st = x) :
    (su.modBuf b g).states = su.states.set b x := by
  apply List.ext_getElem?
  intro k
  rw [Surface.states_getElem?, Surface.bufs_modBuf, List.getElem?_set, Surface.states, List.getElem?_map,
    List.length_map]
  split
  · cases hk : su.bufs[k]? with
    | none => rename_i e; subst e; rw [if_neg (by simpa using hk)]; rfl
    | some r => rename_i e; subst e; rw [if_pos (List.getElem?_eq_some_iff.mp hk).1]; simp [h]
  · rfl

/-- A buffer that leaves use is FREE or DRAINING. -/
theorem Surface.states_leaveUse (su : Surface) (b : Nat) {g : BufRec → BufRec} :
    ∃ x, (x = .free ∨ x = .draining) ∧ (su.modBuf b (fun r => (g r).leaveUse)).states = su.states.set b x := by
  cases hb : su.bufs[b]? with
  | none =>
    refine ⟨.free, .inl rfl, ?_⟩
    have hl : su.bufs.length ≤ b := by simpa using hb
    rw [List.set_eq_of_length_le (by simpa [Surface.states] using hl), Surface.states, Surface.states,
      Surface.modBuf, List.modify_eq_self hl]
  | some r =>
    refine ⟨(g r).leaveUse.st, ?_, ?_⟩
    · rcases (g r).leaveUse_cases with ⟨h, -⟩ | ⟨h, -⟩ <;> rw [h] <;> simp
    · apply List.ext_getElem?
      intro k
      rw [Surface.states_getElem?, Surface.bufs_modBuf, List.getElem?_set, Surface.states, List.getElem?_map,
        List.length_map]
      split
      · rename_i e; subst e; rw [if_pos (List.getElem?_eq_some_iff.mp hb).1, hb]; rfl
      · rfl

/-- No more buffers are in a state that none has entered. -/
theorem count_le_of_forall₂ {l l' : List BufState} {x : BufState} (h : List.Forall₂ (fun a a' => a' = x → a = x) l l') :
    l'.count x ≤ l.count x := by
  induction h with
  | nil => exact Nat.le_refl _
  | @cons a a' l l' hab _ ih =>
    simp only [List.count_cons, beq_iff_eq]
    by_cases ha : a' = x
    · rw [if_pos ha, if_pos (hab ha)]; omega
    · rw [if_neg ha]; omega

theorem count_set_le {l : List BufState} {b : Nat} {x y : BufState} (h : y ≠ x) : (l.set b y).count x ≤ l.count x := by
  induction l generalizing b with
  | nil => simp
  | cons a l ih =>
    cases b with
    | zero => simp [List.count_cons, h]
    | succ b => simp only [List.set_cons_succ, List.count_cons]; exact Nat.add_le_add_right ih _

theorem count_set_le_succ {l : List BufState} {b : Nat} {x y : BufState} : (l.set b y).count x ≤ l.count x + 1 := by
  induction l generalizing b with
  | nil => simp
  | cons a l ih =>
    cases b with
    | zero => simp only [List.set_cons_zero, List.count_cons]; split <;> split <;> omega
    | succ b =>
      simp only [List.set_cons_succ, List.count_cons]
      have := ih (b := b)
      omega

/-! ## The order in which a surface's life goes down -/

/-- A life that stays, or goes from ATTACHED over DETACHING to DEFINED. -/
inductive Lifecycle.Falls : Lifecycle → Lifecycle → Prop
  | refl (a : Lifecycle) : Lifecycle.Falls a a
  | begins : Lifecycle.Falls .attached .detaching
  | ends : Lifecycle.Falls .detaching .defined
  | atOnce : Lifecycle.Falls .attached .defined

theorem Lifecycle.Falls.trans {a b c : Lifecycle} (h : a.Falls b) (k : b.Falls c) : a.Falls c := by
  cases h <;> cases k <;> constructor

/-! ## What a change of one surface keeps -/

/-- A change of a surface by the blocks: the descriptor and the scanout values stay, its invariants hold on, and what it holds
stays inside the capacities. -/
structure Surface.Keeps (su su' : Surface) : Prop where
  desc : su'.desc = su.desc := by rfl
  scan : su'.scrollPending = su.scrollPending ∧ su'.topPending = su.topPending ∧ su'.bottomPending = su.bottomPending ∧
    su'.scrollActive = su.scrollActive ∧ su'.topActive = su.topActive ∧ su'.bottomActive = su.bottomActive := by
      exact ⟨rfl, rfl, rfl, rfl, rfl, rfl⟩
  life : su.life.Falls su'.life := by exact .refl _
  buffers : BuffersSafe su → BuffersSafe su' := by exact fun h => h
  lists : ListsSafe su → ListsSafe su' := by exact fun h => h
  lane : su'.lane.length ≤ max su.lane.length 8 := by exact Nat.le_max_left _ _
  history : su'.history.length ≤ max su.history.length 4 := by exact Nat.le_max_left _ _
  holdWait : su'.holdWait ≤ max su.holdWait 15 := by exact Nat.le_max_left _ _

theorem Surface.Keeps.refl (su : Surface) : su.Keeps su := {}

theorem Surface.Keeps.trans {a b c : Surface} (h : a.Keeps b) (k : b.Keeps c) : a.Keeps c where
  desc := k.desc.trans h.desc
  scan := by
    obtain ⟨h1, h2, h3, h4, h5, h6⟩ := h.scan
    obtain ⟨k1, k2, k3, k4, k5, k6⟩ := k.scan
    exact ⟨k1.trans h1, k2.trans h2, k3.trans h3, k4.trans h4, k5.trans h5, k6.trans h6⟩
  life := h.life.trans k.life
  buffers := fun hs => k.buffers (h.buffers hs)
  lists := fun hs => k.lists (h.lists hs)
  lane := by have := h.lane; have := k.lane; omega
  history := by have := h.history; have := k.history; omega
  holdWait := by have := h.holdWait; have := k.holdWait; omega

/-- With the states, the lists and the head's waiting as they were, both invariants of the buffers hold on. -/
theorem buffersSafe_of_states {su su' : Surface} (hs : su'.states = su.states) (hh : su'.head = .waiting → su.head = .waiting)
    (h : BuffersSafe su) : BuffersSafe su' := by
  rw [buffersSafe_iff] at h ⊢
  rw [hs]
  exact ⟨h.1, h.2.1, fun hw => h.2.2 (hh hw)⟩

theorem listsSafe_of_states {su su' : Surface} (hs : su'.states = su.states) (hp : su'.present = su.present)
    (hc : su'.closing = su.closing) (h : ListsSafe su) : ListsSafe su' := by
  rw [listsSafe_iff] at h ⊢
  rwa [hs, hp, hc]

/-- A change of a buffer record that leaves its state. -/
theorem Surface.keeps_modBuf (su : Surface) (b : Nat) {g : BufRec → BufRec} (h : ∀ r, (g r).st = r.st) :
    su.Keeps (su.modBuf b g) where
  buffers := buffersSafe_of_states (su.states_modBuf b h) id
  lists := listsSafe_of_states (su.states_modBuf b h) rfl rfl

/-! ## What an operation of the fabric keeps -/

/-- JobsSafe with the surfaces of `D` left out, whose jobs are about to be cancelled. -/
def Fabric.JobsBut (D : Fin 8 → Prop) (f : Fabric) : Prop :=
  (∀ j ∈ f.copy.queue, (f.surf j.surface).life = .attached ∨ D j.surface) ∧
    ∀ i, ∀ j ∈ (f.surf i).deferred, j.surface = i ∧ ((f.surf i).life = .attached ∨ D i)

theorem jobsSafe_iff {f : Fabric} : JobsSafe f ↔ f.JobsBut (fun _ => False) := by
  simp only [JobsSafe, Fabric.JobsBut, or_false]

/-- What every operation of the fabric keeps, but for the copy jobs. -/
structure Fabric.Calm (f g : Fabric) : Prop where
  surf : ∀ i, (f.surf i).Keeps (g.surf i) := by exact fun i => Surface.Keeps.refl _
  queue : QueueSafe f.events → QueueSafe g.events := by exact fun h => h
  passQ : g.passQ.length ≤ max f.passQ.length 16 := by exact Nat.le_max_left _ _
  scanQ : g.scanQ.length ≤ max f.scanQ.length 8 := by exact Nat.le_max_left _ _
  slots : g.copy.slots.length ≤ max f.copy.slots.length 4 := by exact Nat.le_max_left _ _

theorem Fabric.Calm.trans {f g h : Fabric} (a : f.Calm g) (b : g.Calm h) : f.Calm h where
  surf := fun i => (a.surf i).trans (b.surf i)
  queue := fun hq => b.queue (a.queue hq)
  passQ := by have := a.passQ; have := b.passQ; omega
  scanQ := by have := a.scanQ; have := b.scanQ; omega
  slots := by have := a.slots; have := b.slots; omega

/-- What every operation of the fabric keeps. -/
structure Fabric.Keeps (f g : Fabric) : Prop extends Fabric.Calm f g where
  jobs : ∀ D, f.JobsBut D → g.JobsBut D := by exact fun _ h => h

theorem Fabric.Keeps.refl (f : Fabric) : f.Keeps f := {}

theorem Fabric.Keeps.trans {f g h : Fabric} (a : f.Keeps g) (b : g.Keeps h) : f.Keeps h where
  toCalm := a.toCalm.trans b.toCalm
  jobs := fun D hj => b.jobs D (a.jobs D hj)

/-- A list of operations, each of which keeps what there is to keep. -/
theorem Fabric.keeps_foldl {α : Type} {op : Fabric → α → Fabric} (l : List α) (f : Fabric)
    (h : ∀ g : Fabric, ∀ a ∈ l, g.Keeps (op g a)) : f.Keeps (l.foldl op f) := by
  induction l generalizing f with
  | nil => exact .refl f
  | cons a l ih =>
    exact (h f a (by simp)).trans (ih _ fun g b hb => h g b (by simp [hb]))

/-- A change of one surface in a fabric that has come from `f`. -/
theorem Fabric.Keeps.modSurf {f k : Fabric} (h : f.Keeps k) (i : Fin 8) {g : Surface → Surface}
    (hs : (f.surf i).Keeps (g (k.surf i))) (hl : (g (k.surf i)).life = (k.surf i).life := by rfl)
    (hd : ∀ j ∈ (g (k.surf i)).deferred, ∃ j' ∈ (k.surf i).deferred, j'.surface = j.surface := by
      exact fun j hj => ⟨j, hj, rfl⟩) : f.Keeps (k.modSurf i g) where
  surf := fun l => by
    by_cases e : i = l
    · subst e; rw [k.surf_modSurf_same]; exact hs
    · rw [k.surf_modSurf_other g e]; exact h.surf l
  queue := h.queue
  passQ := h.passQ
  scanQ := h.scanQ
  slots := h.slots
  jobs := fun D hf => by
    have hj := h.jobs D hf
    have life : ∀ l, ((k.modSurf i g).surf l).life = (k.surf l).life := by
      intro l
      by_cases e : i = l
      · subst e; rw [k.surf_modSurf_same]; exact hl
      · rw [k.surf_modSurf_other g e]
    refine ⟨fun j hq => by rw [life]; exact hj.1 j hq, fun l j hm => ?_⟩
    rw [life]
    by_cases e : i = l
    · subst e
      rw [k.surf_modSurf_same] at hm
      obtain ⟨j', hj', hsf⟩ := hd j hm
      rw [← hsf]
      exact hj.2 i j' hj'
    · rw [k.surf_modSurf_other g e] at hm
      exact hj.2 l j hm

theorem Fabric.keeps_modSurf (f : Fabric) (i : Fin 8) {g : Surface → Surface} (h : (f.surf i).Keeps (g (f.surf i)))
    (hl : (g (f.surf i)).life = (f.surf i).life := by rfl)
    (hd : ∀ j ∈ (g (f.surf i)).deferred, ∃ j' ∈ (f.surf i).deferred, j'.surface = j.surface := by
      exact fun j hj => ⟨j, hj, rfl⟩) : f.Keeps (f.modSurf i g) :=
  (Fabric.Keeps.refl f).modSurf i h hl hd

theorem Fabric.keeps_modBuf (f : Fabric) (i : Fin 8) (b : Nat) {g : BufRec → BufRec} (h : ∀ r, (g r).st = r.st) :
    f.Keeps (f.modBuf i b g) :=
  f.keeps_modSurf i ((f.surf i).keeps_modBuf b h)

/-! ## Response records and the event queue -/

theorem Fabric.keeps_records (f : Fabric) (rs : List RespRecord) (sent : List UpResponse) :
    f.Keeps { f with records := rs, sent := sent } := {}

theorem Fabric.keeps_modRecord (f : Fabric) (id : Nat) (g : RespRecord → RespRecord) : f.Keeps (f.modRecord id g) :=
  f.keeps_records _ f.sent

theorem Fabric.keeps_closeIfDone (f : Fabric) (id : Nat) : f.Keeps (f.closeIfDone id) := by
  rw [f.closeIfDone_rest]; exact f.keeps_records _ _

theorem Fabric.keeps_markDone (f : Fabric) (id : Nat) : f.Keeps (f.markDone id) :=
  (f.keeps_modRecord id _).trans (Fabric.keeps_closeIfDone _ _)

theorem Fabric.keeps_dropRest (f : Fabric) (id : Nat) : f.Keeps (f.dropRest id) :=
  (f.keeps_modRecord id _).trans (Fabric.keeps_closeIfDone _ _)

theorem Fabric.keeps_partEnded (f : Fabric) (id : Nat) (res : Worst) (g : List Byte → List Byte) :
    f.Keeps (f.partEnded id res g) :=
  (f.keeps_modRecord id _).trans (Fabric.keeps_closeIfDone _ _)

theorem Fabric.keeps_answerNow (f : Fabric) (id : Nat) (code : UpCode) : f.Keeps (f.answerNow id code) := by
  rw [f.answerNow_rest]; exact f.keeps_records _ _

/-- R190: an arrival keeps the bounds of the queue. -/
theorem queueSafe_appendEvent {q : List EventRecord} (h : QueueSafe q) (r : EventRecord)
    (hr : r.kind ≠ .overflow) : QueueSafe (appendEvent q r) := by
  have hk : ∀ l : List EventRecord, l.countP (fun r => decide (r.kind = .overflow)) = (l.map (·.kind)).count .overflow := by
    intro l
    rw [List.count, List.countP_map]
    exact List.countP_congr fun _ _ => by simp
  have ho : ∀ l : List EventRecord, holdsOverflow l = true ↔ 0 < (l.map (·.kind)).count .overflow := by
    intro l
    rw [List.count_pos_iff]
    simp [holdsOverflow]
  obtain ⟨hn, h1, h32⟩ := h
  rcases appendEvent_cases q r with ⟨hc, e⟩ | ⟨⟨hl, hc⟩, e⟩ | ⟨hl, e⟩
  · rw [e]
    refine ⟨by simp; omega, by simpa [hr] using h1, fun hl => ?_⟩
    rcases hc with hc | ⟨-, hc⟩
    · simp at hl; omega
    · simp only [holdsOverflow, List.any_append, Bool.or_eq_true] at hc ⊢; exact .inl hc
  · rw [e]
    have h0 : q.countP (fun r => decide (r.kind = .overflow)) = 0 := by
      rw [hk]
      have : ¬ 0 < (q.map (·.kind)).count .overflow := by rw [← ho, hc]; simp
      omega
    refine ⟨by simp [hl], by simp [h0, overflowRecord], fun _ => ?_⟩
    simp [holdsOverflow, overflowRecord]
  · rw [e]
    refine ⟨by simpa using hn, by rw [hk] at h1 ⊢; simpa using h1, fun _ => ?_⟩
    rw [ho, show (countLost q).map (·.kind) = q.map (·.kind) from countLost_kinds q, ← ho]
    exact h32 (by omega)

theorem Fabric.keeps_log (f : Fabric) (env : Env) (kind : EventKind) (su p b : Option Nat) (q d : Nat)
    (h : kind ≠ .overflow := by decide) : f.Keeps (f.log env kind su p b q d) where
  queue := fun hq => queueSafe_appendEvent hq _ h

theorem Fabric.keeps_logSurf (f : Fabric) (env : Env) (kind : EventKind) (i : Fin 8) (b : Option Nat) (q d : Nat)
    (h : kind ≠ .overflow := by decide) : f.Keeps (f.logSurf env kind i b q d) :=
  f.keeps_log env kind _ _ _ _ _ h

theorem Fabric.keeps_logTag (f : Fabric) (env : Env) (kind : EventKind) (e : TagEntry) (t : Fin 32) (q : Nat)
    (h : kind ≠ .overflow := by decide) : f.Keeps (f.logTag env kind e t q) :=
  f.keeps_log env kind _ _ _ _ _ h

end Sys2Proof.Machine

namespace Sys2Proof.Machine

set_option Elab.async false

/-! ## Merges -/

theorem Fabric.keeps_createMerge (f : Fabric) (i : Fin 8) (t : Slot) : f.Keeps (f.createMerge i t) := by
  have h1 : f.Keeps { f with nextMerge := f.nextMerge + 1 } := {}
  unfold Fabric.createMerge
  refine h1.trans (Fabric.keeps_modSurf _ i ?_ rfl fun j hj => ⟨j, hj, rfl⟩)
  refine Surface.Keeps.trans ?_ (Surface.keeps_modBuf _ t.buf fun _ => rfl)
  exact {}

theorem Surface.keeps_endMerge (su : Surface) (m : Merge) : su.Keeps (su.endMerge m) :=
  Surface.Keeps.trans (b := { su with merges := su.merges.filter (fun q => q.id != m.id) }) {}
    (Surface.keeps_modBuf _ _ fun _ => rfl)

theorem Surface.keeps_modMerge (su : Surface) (id : Nat) (g : Merge → Merge) : su.Keeps (su.modMerge id g) :=
  Surface.Keeps.trans (b := su) (.refl su) {}

/-- What the operations on a surface's merges leave: everything but the merges and the buffer records. -/
def Surface.SameButMerges (su su' : Surface) : Prop := su' = { su with merges := su'.merges, bufs := su'.bufs }

theorem Surface.endMerge_rest (su : Surface) (m : Merge) : su.SameButMerges (su.endMerge m) := rfl

theorem Surface.modMerge_rest (su : Surface) (id : Nat) (g : Merge → Merge) : su.SameButMerges (su.modMerge id g) := rfl

theorem Surface.SameButMerges.trans {a b c : Surface} (h : a.SameButMerges b) (k : b.SameButMerges c) :
    a.SameButMerges c := by
  unfold Surface.SameButMerges at *
  rw [k, h]

theorem Surface.keeps_interruptMerges (su : Surface) (p : Merge → Bool) :
    su.Keeps (su.interruptMerges p) ∧ su.SameButMerges (su.interruptMerges p) := by
  unfold Surface.interruptMerges
  refine List.foldlRecOn (motive := fun s => su.Keeps s ∧ su.SameButMerges s) _ _ ⟨.refl su, rfl⟩ fun s hs m _ => ?_
  split
  · split
    · exact ⟨hs.1.trans (s.keeps_endMerge m), hs.2.trans (s.endMerge_rest m)⟩
    · exact ⟨hs.1.trans (s.keeps_modMerge _ _), hs.2.trans (s.modMerge_rest _ _)⟩
  · exact hs

theorem Surface.keeps_mergeEnded (su : Surface) (t : Tables) (id : Nat) (res : AccessEnd) :
    su.Keeps (su.mergeEnded t id res) ∧ su.SameButMerges (su.mergeEnded t id res) := by
  have he := fun m => And.intro (su.keeps_endMerge m) (su.endMerge_rest m)
  unfold Surface.mergeEnded
  split
  · exact ⟨.refl su, rfl⟩
  · split
    · split
      · exact he _
      · exact ⟨su.keeps_modMerge _ _, su.modMerge_rest _ _⟩
    · exact he _

/-! ## The copy engine -/

/-- A change of the copy engine that adds no job and no more chunks than four. -/
theorem Fabric.keeps_copy (f : Fabric) (c : CopyEngine) (hq : ∀ j ∈ c.queue, ∃ j' ∈ f.copy.queue, j'.surface = j.surface)
    (hs : c.slots.length ≤ max f.copy.slots.length 4) : f.Keeps { f with copy := c } where
  slots := hs
  jobs := fun D hj => by
    refine ⟨fun j h => ?_, hj.2⟩
    obtain ⟨j', hj', e⟩ := hq j h
    rw [← e]
    exact hj.1 j' hj'

theorem Fabric.keeps_queue (f : Fabric) {q : List CopyJob} (hq : ∀ j ∈ q, ∃ j' ∈ f.copy.queue, j'.surface = j.surface) :
    f.Keeps { f with copy := { f.copy with queue := q } } :=
  f.keeps_copy _ hq (Nat.le_max_left _ _)

theorem Fabric.keeps_current (f : Fabric) (c : Option CurrentStripe) :
    f.Keeps { f with copy := { f.copy with current := c } } :=
  f.keeps_copy _ (fun j hj => ⟨j, hj, rfl⟩) (Nat.le_max_left _ _)

/-- The surfaces of jobs changed by `g` that keeps them. -/
theorem exists_of_mem_map_job {l : List CopyJob} {g : CopyJob → CopyJob} (hg : ∀ j, (g j).surface = j.surface) :
    ∀ j ∈ l.map g, ∃ j' ∈ l, j'.surface = j.surface := by
  intro j hj
  obtain ⟨j', hj', rfl⟩ := List.mem_map.mp hj
  exact ⟨j', hj', (hg j').symm⟩

theorem exists_of_mem_filter_job {l : List CopyJob} {p : CopyJob → Bool} :
    ∀ j ∈ l.filter p, ∃ j' ∈ l, j'.surface = j.surface :=
  fun j hj => ⟨j, List.mem_of_mem_filter hj, rfl⟩

theorem Fabric.keeps_modJob (f : Fabric) (i : Fin 8) (b : Nat) {g : CopyJob → CopyJob} (hg : ∀ j, (g j).surface = j.surface) :
    f.Keeps (f.modJob i b g) := by
  have hm : ∀ j : CopyJob, (if j.isFor i b then g j else j).surface = j.surface := by
    intro j; split
    · exact hg j
    · rfl
  unfold Fabric.modJob
  refine Fabric.Keeps.trans ?_ (Fabric.keeps_modSurf _ i ?_ rfl (exists_of_mem_map_job hm))
  · exact f.keeps_queue (exists_of_mem_map_job hm)
  · exact {}

theorem Fabric.keeps_removeJob (f : Fabric) (i : Fin 8) (b : Nat) : f.Keeps (f.removeJob i b) := by
  unfold Fabric.removeJob
  refine Fabric.Keeps.trans ?_ (Fabric.keeps_modSurf _ i ?_ rfl exists_of_mem_filter_job)
  · exact f.keeps_queue exists_of_mem_filter_job
  · exact {}

theorem Fabric.keeps_promoteDeferred (f : Fabric) (i : Fin 8) : f.Keeps (f.promoteDeferred i) := by
  unfold Fabric.promoteDeferred
  split
  · exact .refl f
  · rename_i j js hd
    refine ⟨⟨fun k => ?_, fun h => h, Nat.le_max_left _ _, Nat.le_max_left _ _, Nat.le_max_left _ _⟩, fun D hj => ?_⟩
    · by_cases hk : i = k
      · subst hk; rw [Fabric.surf_modSurf_same]; exact {}
      · rw [Fabric.surf_modSurf_other _ _ hk]; exact .refl _
    · have hi := hj.2 i
      rw [hd] at hi
      have life : ∀ k, ((Fabric.modSurf { f with copy := { f.copy with queue := f.copy.queue ++ [j] } } i
          (fun su => { su with deferred := js })).surf k).life = (f.surf k).life := by
        intro k
        rw [Fabric.surf_modSurf]; split <;> rfl
      refine ⟨fun q hq => ?_, fun k q hq => ?_⟩
      · rw [life]
        rcases List.mem_append.mp hq with hq | hq
        · exact hj.1 q hq
        · obtain rfl := List.mem_singleton.mp hq
          obtain ⟨hs, hl⟩ := hi q (by simp)
          rw [hs]
          exact hl
      · rw [life]
        by_cases hk : i = k
        · subst hk
          rw [Fabric.surf_modSurf_same] at hq
          exact hi q (List.mem_cons_of_mem _ hq)
        · rw [Fabric.surf_modSurf_other _ _ hk] at hq
          exact hj.2 k q hq

/-- A job of an ATTACHED surface joins. -/
theorem Fabric.keeps_addJob (f : Fabric) (j : CopyJob) (hl : (f.surf j.surface).life = .attached) : f.Keeps (f.addJob j) := by
  unfold Fabric.addJob
  split
  · refine ⟨⟨fun k => ?_, fun h => h, Nat.le_max_left _ _, Nat.le_max_left _ _, Nat.le_max_left _ _⟩, fun D hj => ?_⟩
    · by_cases hk : j.surface = k
      · subst hk; rw [Fabric.surf_modSurf_same]; exact {}
      · rw [Fabric.surf_modSurf_other _ _ hk]; exact .refl _
    · have life : ∀ k, ((f.modSurf j.surface (fun su => { su with deferred := su.deferred ++ [j] })).surf k).life =
          (f.surf k).life := by
        intro k
        rw [Fabric.surf_modSurf]; split <;> rfl
      refine ⟨fun q hq => by rw [life]; exact hj.1 q hq, fun k q hq => ?_⟩
      rw [life]
      by_cases hk : j.surface = k
      · subst hk
        rw [Fabric.surf_modSurf_same] at hq
        rcases List.mem_append.mp hq with hq | hq
        · exact hj.2 _ q hq
        · obtain rfl := List.mem_singleton.mp hq
          exact ⟨rfl, .inl hl⟩
      · rw [Fabric.surf_modSurf_other _ _ hk] at hq
        exact hj.2 k q hq
  · refine ⟨{}, fun D hj => ⟨fun q hq => ?_, hj.2⟩⟩
    rcases List.mem_append.mp hq with hq | hq
    · exact hj.1 q hq
    · obtain rfl := List.mem_singleton.mp hq
      exact .inl hl

theorem Fabric.keeps_decideCopy (f : Fabric) (env : Env) (i : Fin 8) (b : Nat) (hl : (f.surf i).life = .attached) :
    f.Keeps (f.decideCopy env i b) := by
  unfold Fabric.decideCopy
  dsimp only
  split
  · exact .refl f
  · split
    · exact (f.keeps_modSurf i { history := Nat.zero_le _ }).trans (Fabric.keeps_logSurf _ _ _ _ _ _ _)
    · refine (f.keeps_modBuf i _ ?_).trans (Fabric.keeps_addJob _ _ ?_)
      · exact fun _ => rfl
      · simpa [newJob] using hl

theorem Fabric.keeps_makeCurrent (f : Fabric) (j : CopyJob) (k : Nat) : f.Keeps (f.makeCurrent j k) := by
  unfold Fabric.makeCurrent
  refine Fabric.Keeps.trans ?_ (Fabric.keeps_current _ _)
  exact f.keeps_modJob _ _ fun _ => rfl

theorem Fabric.keeps_select (f : Fabric) : f.Keeps f.select := by
  unfold Fabric.select
  dsimp only
  split
  · exact .refl f
  · split
    · split
      · exact f.keeps_makeCurrent _ _
      · exact .refl f
    · split
      · exact .refl f
      · split
        · exact f.keeps_makeCurrent _ _
        · exact .refl f

theorem Fabric.keeps_startChunk (f : Fabric) (c : CurrentStripe) (hn : f.copy.slots.length < 4) : f.Keeps (f.startChunk c) := by
  unfold Fabric.startChunk
  split
  · exact f.keeps_current _
  · refine Fabric.Keeps.trans (f.keeps_modJob c.surface c.target (g := fun q =>
      q.modStripe c.stripe (fun r => { r with chunks := r.chunks + 1 })) fun _ => rfl) ?_
    refine Fabric.keeps_copy _ _ (fun j hj => ⟨j, hj, rfl⟩) ?_
    simp [Fabric.modJob]
    omega

theorem Fabric.keeps_runEngine (n : Nat) (f : Fabric) : f.Keeps (Fabric.runEngine n f) := by
  induction n generalizing f with
  | zero => exact .refl f
  | succ n ih =>
    unfold Fabric.runEngine
    dsimp only
    split
    · split
      · rename_i hn
        exact (f.keeps_select.trans (f.select.keeps_startChunk _ hn)).trans (ih _)
      · exact f.keeps_select
    · exact f.keeps_select

theorem Fabric.keeps_endJob (f : Fabric) (i : Fin 8) (j : CopyJob) : f.Keeps (f.endJob i j) := by
  unfold Fabric.endJob
  refine Fabric.Keeps.trans ?_ (Fabric.keeps_promoteDeferred _ _)
  refine (f.keeps_removeJob i j.target).trans (Fabric.keeps_modBuf _ _ _ ?_)
  exact fun _ => rfl

/-- A change of the slots alone. -/
theorem Fabric.keeps_slots (f : Fabric) (l : List Chunk) (h : l.length ≤ f.copy.slots.length) :
    f.Keeps { f with copy := { f.copy with slots := l } } :=
  f.keeps_copy _ (fun j hj => ⟨j, hj, rfl⟩) (Nat.le_trans h (Nat.le_max_left _ _))

theorem Fabric.keeps_endChunk (f : Fabric) (ch : Chunk) : f.Keeps (f.endChunk ch) := by
  have hs := f.keeps_slots (f.copy.slots.filter (fun q => q.id != ch.id)) (List.length_filter_le _ _)
  unfold Fabric.endChunk
  dsimp only
  split
  · exact hs
  · have hm := hs.trans (Fabric.keeps_modJob _ ch.surface ch.target (g := fun q => q.modStripe ch.stripe (fun r =>
      let r := { r with chunks := r.chunks - 1 }
      if r.st = .copying ∧ r.chunks = 0 ∧ f.copy.isCurrent ch.surface ch.target ch.stripe = false then
        { r with st := .done } else r)) fun _ => rfl)
    split
    · split
      · exact hm.trans (Fabric.keeps_endJob _ _ _)
      · exact hm
    · exact hm

theorem Fabric.keeps_copyFault (f : Fabric) (env : Env) (ch : Chunk) : f.Keeps (f.copyFault env ch) := by
  unfold Fabric.copyFault
  dsimp only
  split
  · split
    · exact f.keeps_logSurf _ _ _ _ _ _
    · exact (f.keeps_logSurf _ _ _ _ _ _).trans (Fabric.keeps_modJob _ _ _ fun _ => rfl)
  · exact .refl f

theorem Fabric.keeps_cancelChunks (f : Fabric) (i : Fin 8) (b : Nat) : f.Keeps (f.cancelChunks i b) :=
  f.keeps_slots _ (List.length_filterMap_le _ _)

theorem Fabric.keeps_dropCurrent (f : Fabric) (i : Fin 8) (b : Nat) : f.Keeps (f.dropCurrent i b) := by
  unfold Fabric.dropCurrent
  split
  · split
    · exact (f.keeps_current _).trans (Fabric.keeps_select _)
    · exact .refl f
  · exact .refl f

theorem Fabric.keeps_cancelJob (f : Fabric) (i : Fin 8) (b : Nat) (promote : Bool) : f.Keeps (f.cancelJob i b promote) := by
  unfold Fabric.cancelJob
  split
  · exact .refl f
  · dsimp only
    refine Fabric.Keeps.trans ?_ (Fabric.keeps_modBuf _ _ _ fun _ => rfl)
    refine Fabric.Keeps.trans ?_ (Fabric.keeps_cancelChunks _ _ _)
    refine Fabric.Keeps.trans ?_ (Fabric.keeps_dropCurrent _ _ _)
    split
    · exact (f.keeps_removeJob i b).trans (Fabric.keeps_promoteDeferred _ _)
    · exact f.keeps_removeJob i b

theorem Fabric.keeps_cancelJobs (f : Fabric) (i : Fin 8) : f.Keeps (f.cancelJobs i) :=
  Fabric.keeps_foldl _ f fun g j _ => g.keeps_cancelJob i j.target false

end Sys2Proof.Machine

namespace Sys2Proof.Machine

set_option Elab.async false

/-! ## The rotation controller -/

theorem buffersSafe_of_set {su su' : Surface} {b : Nat} {x : BufState} (hs : su'.states = su.states.set b x)
    (hf : x ≠ .filling) (hn : x ≠ .shown) (hh : su'.head = .waiting → su.head = .waiting) (h : BuffersSafe su) :
    BuffersSafe su' := by
  rw [buffersSafe_iff] at h ⊢
  have h1 := count_set_le (l := su.states) (b := b) hf
  have h2 := count_set_le (l := su.states) (b := b) hn
  rw [hs]
  refine ⟨by omega, by omega, fun hw => ?_⟩
  have := h.2.2 (hh hw)
  omega

/-- A CLOSING buffer at the front of the close order becomes READY. -/
theorem Surface.keeps_makeReady (su : Surface) {b : Nat} {bs : List Nat} (hc : su.closing = b :: bs) :
    su.Keeps ({ su with closing := su.closing.erase b, present := su.present ++ [b] }.modBuf b
      (fun r => { r with st := .ready })) := by
  have hs := Surface.states_modBuf_set { su with closing := su.closing.erase b, present := su.present ++ [b] } b
    (g := fun r => { r with st := .ready }) (x := .ready) fun _ => rfl
  refine { buffers := buffersSafe_of_set hs (by decide) (by decide) fun h => h, lists := fun h => ?_ }
  rw [listsSafe_iff] at h ⊢
  obtain ⟨hp, hcl, hpr, hcs⟩ := h
  rw [hc] at hcl hcs
  obtain ⟨hb, hbs⟩ := List.nodup_cons.mp hcl
  have hbc : su.states[b]? = some .closing := hcs b (by simp)
  have hnp : b ∉ su.present := fun hm => by rw [hpr b hm] at hbc; cases hbc
  have hlt : b < su.states.length := (List.getElem?_eq_some_iff.mp hbc).1
  have hne : ∀ k, k ≠ b → (su.states.set b .ready)[k]? = su.states[k]? := fun k hk => by
    rw [List.getElem?_set]; simp [Ne.symm hk]
  rw [hs, show ({ su with closing := su.closing.erase b, present := su.present ++ [b] } : Surface).states = su.states from rfl]
  simp only [Surface.modBuf_present, Surface.modBuf_closing, hc, List.erase_cons_head]
  refine ⟨?_, hbs, fun k hk => ?_, fun k hk => ?_⟩
  · rw [List.nodup_append]
    exact ⟨hp, by simp, fun x hx y hy => by simp at hy; subst hy; exact fun e => hnp (e ▸ hx)⟩
  · rcases List.mem_append.mp hk with hk | hk
    · rw [hne k (fun e => hnp (e ▸ hk))]; exact hpr k hk
    · obtain rfl := List.mem_singleton.mp hk
      rw [List.getElem?_set]; simp [hlt]
  · rw [hne k (fun e => hb (e ▸ hk))]; exact hcs k (by simp [hk])

theorem Fabric.keeps_makeReady (f : Fabric) (env : Env) (i : Fin 8) {b : Nat} {bs : List Nat}
    (hc : (f.surf i).closing = b :: bs) : f.Keeps (f.makeReady env i b) := by
  unfold Fabric.makeReady
  refine Fabric.Keeps.trans ?_ (Fabric.keeps_logSurf _ _ _ _ _ _ _)
  exact f.keeps_modSurf i ((f.surf i).keeps_makeReady hc)

/-- The close order after its first buffer has become READY. -/
theorem Fabric.closing_makeReady (f : Fabric) (env : Env) (i : Fin 8) {b : Nat} {bs : List Nat}
    (hc : (f.surf i).closing = b :: bs) : ((f.makeReady env i b).surf i).closing = bs := by
  have : (f.makeReady env i b).surf i = (f.modSurf i (fun su =>
    { su with closing := su.closing.erase b, present := su.present ++ [b] }.modBuf b (fun r => { r with st := .ready }))).surf i := rfl
  rw [this, Fabric.surf_modSurf_same]
  simp [hc]

theorem Fabric.keeps_promoteReady (env : Env) (i : Fin 8) (l : List Nat) (f : Fabric) (hc : (f.surf i).closing = l) :
    f.Keeps (Fabric.promoteReady env i l f) := by
  induction l generalizing f with
  | nil => exact .refl f
  | cons b bs ih =>
    unfold Fabric.promoteReady
    split
    · exact (f.keeps_makeReady env i hc).trans (ih _ (f.closing_makeReady env i hc))
    · exact .refl f

theorem Fabric.keeps_drainEnd (f : Fabric) (env : Env) (i : Fin 8) : f.Keeps (f.drainEnd env i) := by
  unfold Fabric.drainEnd
  dsimp only
  split
  · rename_i h
    have hk : f.Keeps (f.modSurf i (fun su => { su with life := .defined, bufs := [], present := [], closing := [] })) := by
      refine ⟨⟨fun k => ?_, fun h => h, Nat.le_max_left _ _, Nat.le_max_left _ _, Nat.le_max_left _ _⟩, fun D hj => ?_⟩
      · by_cases e : i = k
        · subst e
          rw [Fabric.surf_modSurf_same]
          exact {
            life := by rw [h.1]; exact .ends
            buffers := fun _ => ⟨Nat.zero_le _, Nat.zero_le _, fun _ => rfl⟩
            lists := fun _ => ⟨.nil, .nil, by simp, by simp⟩ }
        · rw [Fabric.surf_modSurf_other _ _ e]; exact .refl _
      · refine ⟨fun j hq => ?_, fun k j hq => ?_⟩
        · rw [Fabric.surf_modSurf]
          split
          · rename_i e
            have := hj.1 j hq
            rw [← e, h.1] at this
            exact .inr (e ▸ this.resolve_left (by decide))
          · exact hj.1 j hq
        · rw [Fabric.surf_modSurf] at hq ⊢
          split at hq
          · rename_i e
            subst e
            have := hj.2 i j hq
            rw [h.1] at this
            exact ⟨this.1, .inr (this.2.resolve_left (by decide))⟩
          · rename_i e
            rw [if_neg e]
            exact hj.2 k j hq
    split
    · exact hk.trans (Fabric.keeps_logSurf _ _ _ _ _ _ _)
    · exact hk
  · exact .refl f

/-- The release test of every record: DRAINING buffers may go FREE and no other state changes. -/
theorem Surface.keeps_release (su : Surface) : su.Keeps { su with bufs := su.bufs.map BufRec.release } := by
  have hg : ∀ b : Nat, ({ su with bufs := su.bufs.map BufRec.release } : Surface).states[b]? =
      (su.bufs[b]?).map (fun r : BufRec => r.release.st) := by
    intro b; rw [Surface.states_getElem?]; simp [List.getElem?_map, Function.comp_def]
  have hr : ∀ r : BufRec, r.release.st = r.st ∨ r.release.st = .free ∧ r.st = .draining := by
    intro r
    rcases r.release_cases with ⟨h, hd, -⟩ | ⟨h, -⟩
    · right; rw [h]; exact ⟨rfl, hd⟩
    · left; rw [h]
  have hc : ∀ x, x ≠ .free → ({ su with bufs := su.bufs.map BufRec.release } : Surface).states.count x ≤ su.states.count x := by
    intro x hx
    refine count_le_of_forall₂ ?_
    simp only [Surface.states, List.map_map, List.forall₂_map_left_iff, List.forall₂_map_right_iff, List.forall₂_same]
    intro r _ e
    rcases hr r with h | ⟨h, -⟩
    · exact h.symm.trans e
    · exact absurd (e.symm.trans h) hx
  refine { buffers := fun h => ?_, lists := fun h => ?_ }
  · rw [buffersSafe_iff] at h ⊢
    have h1 := hc .filling (by decide)
    have h2 := hc .shown (by decide)
    refine ⟨by omega, by omega, fun hw => ?_⟩
    have := h.2.2 hw
    omega
  · rw [listsSafe_iff] at h ⊢
    obtain ⟨hp, hcl, hpr, hcs⟩ := h
    refine ⟨hp, hcl, fun b hb => ?_, fun b hb => ?_⟩
    · have := hpr b hb
      rw [Surface.states_getElem?, Option.map_eq_some_iff] at this
      obtain ⟨r, hr', hst⟩ := this
      rw [hg, hr']
      rcases hr r with h | ⟨-, h⟩
      · simp [h, hst]
      · rw [h] at hst; cases hst
    · have := hcs b hb
      rw [Surface.states_getElem?, Option.map_eq_some_iff] at this
      obtain ⟨r, hr', hst⟩ := this
      rw [hg, hr']
      rcases hr r with h | ⟨-, h⟩
      · simp [h, hst]
      · rw [h] at hst; cases hst

theorem Fabric.keeps_bufferTests (f : Fabric) (env : Env) (i : Fin 8) : f.Keeps (f.bufferTests env i) := by
  unfold Fabric.bufferTests
  dsimp only
  refine Fabric.Keeps.trans ?_ (Fabric.keeps_drainEnd _ _ _)
  refine (f.keeps_modSurf i (f.surf i).keeps_release).trans (Fabric.keeps_promoteReady env i _ _ rfl)

/-! ### Opening -/

/-- What the decision about carry-forward leaves of the surface: everything but the history, the deferred jobs, and a hold. -/
theorem Fabric.surf_decideCopy (f : Fabric) (env : Env) (i : Fin 8) (b : Nat) :
    (f.decideCopy env i b).surf i = { f.surf i with
      history := ((f.decideCopy env i b).surf i).history
      deferred := ((f.decideCopy env i b).surf i).deferred
      bufs := ((f.decideCopy env i b).surf i).bufs } ∧
    ((f.decideCopy env i b).surf i).states = (f.surf i).states := by
  unfold Fabric.decideCopy
  dsimp only
  split
  · exact ⟨rfl, rfl⟩
  · split
    · have : ∀ (g : Fabric) k sq, (g.logSurf env .carryLost i k sq 0).surf i = g.surf i := fun _ _ _ => rfl
      rw [this, Fabric.surf_modSurf_same]
      exact ⟨rfl, rfl⟩
    · rename_i src _
      have hst := (f.surf i).states_modBuf src (g := fun r => { r with hold := true }) fun _ => rfl
      unfold Fabric.addJob
      split
      · simp only [newJob, Fabric.surf_modSurf_same, Fabric.surf_modBuf_same]
        exact ⟨rfl, hst⟩
      · have : ∀ (g : Fabric) c, ({ g with copy := c } : Fabric).surf i = g.surf i := fun _ _ => rfl
        rw [this, Fabric.surf_modBuf_same]
        exact ⟨rfl, hst⟩

/-- The open of a buffer with the head mapped into it, in a fabric that has come from `f` and whose surface has no FILLING buffer
and the buffer in neither list. -/
theorem Fabric.keeps_open {f g : Fabric} (h : f.Keeps g) (env : Env) (i : Fin 8) (b : Nat) (q : LaneReq)
    (hl : (g.surf i).life = .attached) (hb : BuffersSafe (f.surf i) → (g.surf i).states.count .filling = 0)
    (hm : ListsSafe (f.surf i) → b ∉ (g.surf i).present ∧ b ∉ (g.surf i).closing) :
    f.Keeps ((g.openBuffer env i b).mapInto i b q) := by
  obtain ⟨he, hst⟩ := g.surf_decideCopy env i b
  have hd := h.trans (g.keeps_decideCopy env i b hl)
  unfold Fabric.openBuffer Fabric.mapInto
  generalize g.decideCopy env i b = k at he hst hd
  rw [k.modSurf_modSurf]
  refine hd.modSurf i ?_
  have hs := Surface.states_modBuf_set
    ({ k.surf i with latch := some (k.surf i).desc.newLatch, holdWait := 0, holdReached := false } : Surface) b
    (g := fun r => { r with st := .filling, content := 0, written := [], touched := false, damaged := false, age := 0 })
    (x := .filling) fun _ => rfl
  have hk : ({ k.surf i with latch := some (k.surf i).desc.newLatch, holdWait := 0, holdReached := false } : Surface).states =
      (g.surf i).states := hst
  rw [hk] at hs
  have hp : (k.surf i).present = (g.surf i).present := by rw [he]
  have hc : (k.surf i).closing = (g.surf i).closing := by rw [he]
  have h0 := hd.surf i
  refine { desc := h0.desc, scan := h0.scan, life := h0.life, lane := h0.lane, history := h0.history
           holdWait := Nat.zero_le _, buffers := fun hf => ?_, lists := fun hf => ?_ }
  · have hz := hb hf
    have h1 := h.surf i |>.buffers hf
    rw [buffersSafe_iff] at h1 ⊢
    refine ⟨?_, ?_, nofun⟩
    · rw [show Surface.states { (_ : Surface) with head := _ } = _ from hs]
      have := count_set_le_succ (l := (g.surf i).states) (b := b) (x := .filling) (y := .filling)
      omega
    · rw [show Surface.states { (_ : Surface) with head := _ } = _ from hs]
      have := count_set_le (l := (g.surf i).states) (b := b) (x := .shown) (y := .filling) (by decide)
      omega
  · obtain ⟨hnp, hnc⟩ := hm hf
    have h1 := h.surf i |>.lists hf
    rw [listsSafe_iff] at h1 ⊢
    rw [show Surface.states { (_ : Surface) with head := _ } = _ from hs]
    simp only [Surface.modBuf_present, Surface.modBuf_closing, hp, hc]
    have hne : ∀ l, l ≠ b → ((g.surf i).states.set b .filling)[l]? = (g.surf i).states[l]? := fun l hl => by
      rw [List.getElem?_set]; simp [Ne.symm hl]
    obtain ⟨h2, h3, h4, h5⟩ := h1
    exact ⟨h2, h3, fun l hl => by rw [hne l (fun e => hnp (e ▸ hl))]; exact h4 l hl,
      fun l hl => by rw [hne l (fun e => hnc (e ▸ hl))]; exact h5 l hl⟩

/-- What the head obtains is opened for it. -/
theorem Fabric.keeps_obtainBuffer (f : Fabric) (env : Env) (i : Fin 8) (q : LaneReq) {b : Nat} {g : Fabric}
    (hl : (f.surf i).life = .attached) (hf : (f.surf i).filling = none) (h : f.obtainBuffer env i = some (b, g)) :
    f.Keeps (g.mapInto i b q) := by
  have h0 : (f.surf i).states.count .filling = 0 := by
    rw [List.count_eq_zero]
    intro hm
    obtain ⟨r, hr, hst⟩ := List.mem_map.mp hm
    exact Surface.filling_none.mp hf r hr hst
  unfold Fabric.obtainBuffer at h
  dsimp only at h
  split at h
  · rename_i c hc
    obtain ⟨rfl, rfl⟩ := Prod.mk.injEq .. ▸ Option.some.inj h
    obtain ⟨r, hr, hst⟩ := Surface.chooseFree_some hc
    refine Fabric.keeps_open (.refl f) env i c q hl (fun _ => h0) fun hs => ?_
    have hb : (f.surf i).states[c]? = some .free := by rw [Surface.states_getElem?, hr]; simp [hst]
    rw [listsSafe_iff] at hs
    exact ⟨fun hm => by simp [hs.2.2.1 c hm] at hb, fun hm => by simp [hs.2.2.2 c hm] at hb⟩
  · split at h
    · split at h
      · rename_i c hc
        obtain ⟨rfl, rfl⟩ := Prod.mk.injEq .. ▸ Option.some.inj h
        have hm : c ∈ (f.surf i).present := List.mem_of_find?_eq_some hc
        unfold Fabric.reclaimBuffer
        dsimp only
        have hk : f.Keeps (f.modSurf i (fun su => { su with present := su.present.erase c })) := by
          refine f.keeps_modSurf i { lists := fun hs => ?_ }
          exact ⟨hs.1.erase c, hs.2.1, fun k hk => hs.2.2.1 k (List.mem_of_mem_erase hk), hs.2.2.2⟩
        refine Fabric.keeps_open (hk.trans (Fabric.keeps_logSurf _ _ _ _ _ _ _)) env i c q ?_ (fun _ => ?_) fun hs => ?_
        all_goals rw [show ∀ (g : Fabric) k b sq d, (g.logSurf env k i b sq d).surf i = g.surf i from fun _ _ _ _ _ => rfl,
          Fabric.surf_modSurf_same]
        · exact hl
        · exact h0
        · refine ⟨hs.1.not_mem_erase, fun hc => ?_⟩
          have h1 := hs.2.2.1 c hm
          rw [hs.2.2.2 c hc] at h1
          cases h1
      · cases h
    · cases h

/-! ### The hold limit -/

theorem Fabric.keeps_expireHold (f : Fabric) (env : Env) (i : Fin 8) : f.Keeps (f.expireHold env i) := by
  unfold Fabric.expireHold
  dsimp only
  have h1 := Fabric.keeps_foldl (f.surf i).lane f (op := fun g q => g.answerNow q.id .retry)
    fun g q _ => g.keeps_answerNow q.id .retry
  have h2 := h1.trans (Fabric.keeps_modSurf _ i (g := fun su => { su with lane := [], head := .fresh })
    { buffers := fun h => ⟨h.1, h.2.1, nofun⟩, lane := Nat.zero_le _ })
  have h3 := h2.trans (Fabric.keeps_logSurf _ env .holdExpired i none 0 (f.surf i).lane.length)
  exact h3.trans (Fabric.keeps_modSurf _ i { holdWait := Nat.zero_le _ })

theorem Surface.keeps_countHold (su : Surface) : su.Keeps su.countHold where
  holdWait := by
    have : su.countHold.holdWait = min 15 (su.holdWait + 1) := rfl
    omega

theorem Fabric.keeps_holdStep (f : Fabric) (env : Env) (i : Fin 8) : f.Keeps (f.holdStep env i) := by
  have h := f.keeps_modSurf i (f.surf i).keeps_countHold
  unfold Fabric.holdStep
  dsimp only
  split
  · split
    · exact h.trans (Fabric.keeps_expireHold _ _ _)
    · exact h
  · exact .refl f

/-! ### Closing -/

/-- At the wrap contents and history change, and nothing else. -/
theorem Surface.wrapSequences_rest (su : Surface) :
    su.wrapSequences = { su with history := su.wrapSequences.history, bufs := su.wrapSequences.bufs } ∧
      su.wrapSequences.states = su.states ∧ su.wrapSequences.history.length ≤ su.history.length := by
  unfold Surface.wrapSequences
  split
  · refine ⟨rfl, ?_, Nat.zero_le _⟩
    simp only [Surface.states, List.map_map]
    refine List.map_congr_left fun r _ => ?_
    simp only [Function.comp_apply]
    split <;> rfl
  · exact ⟨rfl, rfl, Nat.le_refl _⟩

theorem appendHistory_length (h : List HistoryEntry) (e : HistoryEntry) : (appendHistory h e).length ≤ 4 := by
  simp only [appendHistory, List.length_drop, List.length_append, List.length_cons, List.length_nil]
  omega

/-- What a close changes of the surface. -/
theorem Surface.closeSteps_rest (su : Surface) (b : Nat) :
    su.closeSteps b = { su with
      frameCounter := nextSeq su.frameCounter, history := (su.closeSteps b).history, bufs := (su.closeSteps b).bufs
      closePending := false, latch := none, closing := su.closing ++ [b], head := su.head.dropMapping } ∧
    (su.closeSteps b).states = su.states.set b .closing ∧ (su.closeSteps b).history.length ≤ max su.history.length 4 := by
  obtain ⟨he, hs, hh⟩ := su.wrapSequences_rest
  unfold Surface.closeSteps
  dsimp only
  generalize su.wrapSequences = w at he hs hh
  have hst : ∀ v : Surface, v.states = su.states →
      (v.modBuf b (fun r => { r with st := .closing })).states = su.states.set b .closing := fun v hv => by
    rw [Surface.states_modBuf_set v b (x := .closing) fun _ => rfl, hv]
  have hm : ∀ n, (w.modBuf b (fun r => { r with content := n })).states = su.states := fun n => by
    rw [w.states_modBuf b, hs]
    exact fun _ => rfl
  split
  · refine ⟨by rw [he]; rfl, hst _ (hm _), ?_⟩
    exact Nat.le_trans (appendHistory_length _ _) (Nat.le_max_right _ _)
  · exact ⟨by rw [he]; rfl, hst _ (hm _), Nat.le_trans hh (Nat.le_max_left _ _)⟩

theorem HeadPhase.dropMapping_waiting {h : HeadPhase} : h.dropMapping = .waiting ↔ h = .waiting := by
  cases h <;> simp [HeadPhase.dropMapping]

theorem Surface.keeps_closeSteps (su : Surface) {b : Nat} (hb : su.states[b]? = some .filling) :
    su.Keeps (su.closeSteps b) := by
  obtain ⟨he, hs, hh⟩ := su.closeSteps_rest b
  refine { desc := by rw [he], scan := by rw [he]; exact ⟨rfl, rfl, rfl, rfl, rfl, rfl⟩, life := by rw [he]; exact .refl _
           lane := by rw [he]; exact Nat.le_max_left _ _, history := hh, holdWait := by rw [he]; exact Nat.le_max_left _ _
           buffers := ?_, lists := fun h => ?_ }
  · refine buffersSafe_of_set hs (by decide) (by decide) ?_
    rw [he]
    exact HeadPhase.dropMapping_waiting.mp
  · rw [listsSafe_iff] at h ⊢
    obtain ⟨hp, hc, hpr, hcs⟩ := h
    have hnp : b ∉ su.present := fun hm => by rw [hpr b hm] at hb; cases hb
    have hnc : b ∉ su.closing := fun hm => by rw [hcs b hm] at hb; cases hb
    have hlt : b < su.states.length := (List.getElem?_eq_some_iff.mp hb).1
    have hne : ∀ k, k ≠ b → (su.states.set b .closing)[k]? = su.states[k]? := fun k hk => by
      rw [List.getElem?_set]; simp [Ne.symm hk]
    rw [hs, he]
    refine ⟨hp, ?_, fun k hk => ?_, fun k hk => ?_⟩
    · rw [List.nodup_append]
      exact ⟨hc, by simp, fun x hx y hy => by simp at hy; subst hy; exact fun e => hnc (e ▸ hx)⟩
    · rw [hne k (fun e => hnp (e ▸ hk))]; exact hpr k hk
    · rcases List.mem_append.mp hk with hk | hk
      · rw [hne k (fun e => hnc (e ▸ hk))]; exact hcs k hk
      · obtain rfl := List.mem_singleton.mp hk
        rw [List.getElem?_set]; simp [hlt]

theorem Fabric.keeps_spillSlot (f : Fabric) (i : Fin 8) : f.Keeps (f.spillSlot i) := by
  unfold Fabric.spillSlot
  split
  · exact (f.keeps_createMerge i _).trans (Fabric.keeps_modSurf _ i {})
  · exact .refl f

theorem Surface.states_of_filling {su : Surface} {b : Nat} (h : su.filling = some b) : su.states[b]? = some .filling := by
  obtain ⟨r, hr, hst⟩ := Surface.filling_some h
  rw [Surface.states_getElem?, hr]
  simp [hst]

theorem Fabric.keeps_applyClose (f : Fabric) (env : Env) (i : Fin 8) {b : Nat} (hb : (f.surf i).filling = some b) :
    f.Keeps (f.applyClose env i b) := by
  have he := ((f.surf i).closeSteps_rest b).1
  unfold Fabric.applyClose
  refine Fabric.Keeps.trans ?_ (Fabric.keeps_bufferTests _ _ _)
  refine Fabric.Keeps.trans ?_ (Fabric.keeps_spillSlot _ _)
  refine f.keeps_modSurf i ((f.surf i).keeps_closeSteps (Surface.states_of_filling hb)) (by rw [he]) ?_
  rw [he]
  exact fun j hj => ⟨j, hj, rfl⟩

theorem Fabric.keeps_closeTrigger (f : Fabric) (env : Env) (i : Fin 8) : f.Keeps (f.closeTrigger env i) := by
  unfold Fabric.closeTrigger
  split
  · exact .refl f
  · rename_i b hb
    split
    · exact f.keeps_modSurf i {}
    · exact f.keeps_applyClose env i hb

/-! ### The boundary -/

theorem Surface.keeps_ageShown (su : Surface) : su.Keeps su.ageShown := by
  unfold Surface.ageShown
  split
  · exact su.keeps_modBuf _ fun _ => rfl
  · exact .refl su

/-- A buffer at the front of the present queue leaves use. -/
theorem Fabric.keeps_skipBuffer (f : Fabric) (env : Env) (i : Fin 8) (n : Word) {b : Nat} {bs : List Nat}
    (hp : (f.surf i).present = b :: bs) :
    f.Keeps (f.skipBuffer env i n b) ∧ ((f.skipBuffer env i n b).surf i).present = bs := by
  unfold Fabric.skipBuffer
  dsimp only
  rw [show ∀ (g : Fabric) k b sq d, (g.logSurf env k i b sq d).surf i = g.surf i from fun _ _ _ _ _ => rfl,
    Fabric.surf_modSurf_same]
  refine ⟨Fabric.Keeps.trans (f.keeps_modSurf i ?_) (Fabric.keeps_logSurf _ _ _ _ _ _ _), by simp [hp]⟩
  obtain ⟨x, hx, hs⟩ := Surface.states_leaveUse { f.surf i with present := (f.surf i).present.erase b } b (g := fun r => r)
  have hxf : x ≠ .filling ∧ x ≠ .shown := by rcases hx with rfl | rfl <;> decide
  refine { buffers := buffersSafe_of_set hs hxf.1 hxf.2 fun h => h, lists := fun h => ?_ }
  rw [listsSafe_iff] at h ⊢
  obtain ⟨h1, h2, h3, h4⟩ := h
  rw [hs, show Surface.states { f.surf i with present := (f.surf i).present.erase b } = (f.surf i).states from rfl]
  simp only [Surface.modBuf_present, Surface.modBuf_closing, hp, List.erase_cons_head]
  rw [hp] at h1 h3
  obtain ⟨hb, hbs⟩ := List.nodup_cons.mp h1
  have hnc : b ∉ (f.surf i).closing := fun hm => by have := h3 b (by simp); rw [h4 b hm] at this; cases this
  have hne : ∀ k, k ≠ b → ((f.surf i).states.set b x)[k]? = (f.surf i).states[k]? := fun k hk => by
    rw [List.getElem?_set]; simp [Ne.symm hk]
  exact ⟨hbs, h2, fun k hk => by rw [hne k (fun e => hb (e ▸ hk))]; exact h3 k (by simp [hk]),
    fun k hk => by rw [hne k (fun e => hnc (e ▸ hk))]; exact h4 k hk⟩

/-- The buffers ahead of the newest leave use one after another. -/
theorem Fabric.keeps_skipBuffers (env : Env) (i : Fin 8) (n : Word) (l rest : List Nat) (f : Fabric)
    (hp : (f.surf i).present = l ++ rest) :
    f.Keeps (l.foldl (fun g k => g.skipBuffer env i n k) f) ∧
      ((l.foldl (fun g k => g.skipBuffer env i n k) f).surf i).present = rest := by
  induction l generalizing f with
  | nil => exact ⟨.refl f, hp⟩
  | cons b l ih =>
    obtain ⟨h1, h2⟩ := f.keeps_skipBuffer env i n hp
    obtain ⟨k1, k2⟩ := ih _ h2
    exact ⟨h1.trans k1, k2⟩

/-- A surface whose SHOWN buffer, if it has one, has left use. -/
def Surface.Retired (su v : Surface) : Prop :=
  su.shown = none ∧ v = su ∨ ∃ o, su.shown = some o ∧ v = su.modBuf o BufRec.leaveUse

/-- R117: a flip makes the buffer SHOWN in the surface whose SHOWN buffer has left use. -/
theorem Fabric.flipTo_eq (f : Fabric) (env : Env) (i : Fin 8) (n : Word) (b : Nat) :
    ∃ v, (f.surf i).Retired v ∧
      let w := { v with present := v.present.erase b }.modBuf b (fun r => { r with st := .shown, age := 0 })
      f.flipTo env i n b = (f.modSurf i (fun _ => w)).logSurf env .flip i (some b) (w.buf b).content (n.toNat % 65536) := by
  have key : ∀ (g : Surface → Surface) w, g (f.surf i) = w →
      (f.modSurf i g).logSurf env .flip i (some b) (((f.modSurf i g).surf i).buf b).content (n.toNat % 65536) =
        (f.modSurf i (fun _ => w)).logSurf env .flip i (some b) (w.buf b).content (n.toNat % 65536) := by
    rintro g w rfl
    rw [f.modSurf_congr i (h := fun _ => g (f.surf i)) rfl, Fabric.surf_modSurf_same]
  cases ho : (f.surf i).shown with
  | none => exact ⟨f.surf i, .inl ⟨ho, rfl⟩, key _ _ (by rw [ho])⟩
  | some o => exact ⟨(f.surf i).modBuf o BufRec.leaveUse, .inr ⟨o, ho, rfl⟩, key _ _ (by rw [ho])⟩

/-- When the SHOWN buffer has left use, none of at most one is SHOWN, and no list knows it. -/
theorem Surface.Retired.states {su v : Surface} (hv : su.Retired v) :
    v = { su with bufs := v.bufs } ∧ (v.states.count .filling ≤ su.states.count .filling) ∧
      (su.states.count .shown ≤ 1 → v.states.count .shown = 0) ∧
      ∀ (k : Nat) (x : BufState), x = .ready ∨ x = .closing → su.states[k]? = some x → v.states[k]? = some x := by
  rcases hv with ⟨ho, rfl⟩ | ⟨o, ho, rfl⟩
  · refine ⟨rfl, Nat.le_refl _, fun _ => ?_, fun _ _ _ h => h⟩
    rw [List.count_eq_zero]
    intro hm
    obtain ⟨r, hr, hst⟩ := List.mem_map.mp hm
    exact Surface.shown_none.mp ho r hr hst
  · obtain ⟨x, hx, hs⟩ := Surface.states_leaveUse su o (g := fun r => r)
    obtain ⟨r, hr, hst⟩ := Surface.shown_some ho
    have hro : su.states[o]? = some .shown := by rw [Surface.states_getElem?, hr]; simp [hst]
    change (su.modBuf o BufRec.leaveUse).states = _ at hs
    refine ⟨rfl, ?_, fun h => ?_, fun k y hy hk => ?_⟩
    · rw [hs]
      exact count_set_le (by rcases hx with rfl | rfl <;> decide)
    · rw [hs]
      obtain ⟨hlt, he⟩ := List.getElem?_eq_some_iff.mp hro
      have hx' : (x == BufState.shown) = false := by rcases hx with rfl | rfl <;> rfl
      rw [List.count_set hlt]
      simp only [he, beq_self_eq_true, if_true, hx']
      simp
      omega
    · rw [hs, List.getElem?_set]
      by_cases e : o = k
      · subst e
        rw [hro] at hk
        rcases hy with rfl | rfl <;> cases hk
      · simpa [e] using hk

/-- A buffer of the present queue becomes SHOWN after the one SHOWN before has left use. -/
theorem Surface.Retired.keeps_flip {su v : Surface} (hv : su.Retired v) {b : Nat} (hb : b ∈ su.present) :
    su.Keeps ({ v with present := v.present.erase b }.modBuf b (fun r => { r with st := .shown, age := 0 })) := by
  obtain ⟨he, hf, h0, hk⟩ := hv.states
  have hs := Surface.states_modBuf_set { v with present := v.present.erase b } b
    (g := fun r => { r with st := .shown, age := 0 }) (x := .shown) fun _ => rfl
  rw [show Surface.states { v with present := v.present.erase b } = v.states from rfl] at hs
  have hf' : (v.states.set b .shown).count .filling ≤ su.states.count .filling :=
    Nat.le_trans (count_set_le (by decide)) hf
  refine { desc := by rw [he]; rfl, scan := by rw [he]; exact ⟨rfl, rfl, rfl, rfl, rfl, rfl⟩
           life := by rw [he]; exact .refl _
           lane := by rw [he]; exact Nat.le_max_left _ _, history := by rw [he]; exact Nat.le_max_left _ _
           holdWait := by rw [he]; exact Nat.le_max_left _ _, buffers := fun h => ?_, lists := fun h => ?_ }
  · rw [buffersSafe_iff] at h ⊢
    rw [hs, show Surface.head (Surface.modBuf _ _ _) = su.head by rw [he]; rfl]
    have h1 := h0 h.2.1
    have h2 := count_set_le_succ (l := v.states) (b := b) (x := .shown) (y := .shown)
    refine ⟨by omega, by omega, fun hw => ?_⟩
    have := h.2.2 hw
    omega
  · rw [listsSafe_iff] at h ⊢
    obtain ⟨h1, h2, h3, h4⟩ := h
    rw [hs, show Surface.present (Surface.modBuf _ _ _) = su.present.erase b by rw [he]; rfl,
      show Surface.closing (Surface.modBuf _ _ _) = su.closing by rw [he]; rfl]
    have hnc : b ∉ su.closing := fun hm => by have := h3 b hb; rw [h4 b hm] at this; cases this
    have hne : ∀ k, k ≠ b → (v.states.set b .shown)[k]? = v.states[k]? := fun k hk => by
      rw [List.getElem?_set]; simp [Ne.symm hk]
    refine ⟨h1.erase b, h2, fun k hk' => ?_, fun k hk' => ?_⟩
    · rw [hne k (fun e => h1.not_mem_erase (e ▸ hk'))]
      exact hk k _ (.inl rfl) (h3 k (List.mem_of_mem_erase hk'))
    · rw [hne k (fun e => hnc (e ▸ hk'))]
      exact hk k _ (.inr rfl) (h4 k hk')

theorem Fabric.keeps_flipTo (f : Fabric) (env : Env) (i : Fin 8) (n : Word) {b : Nat} (hb : b ∈ (f.surf i).present) :
    f.Keeps (f.flipTo env i n b) := by
  obtain ⟨v, hv, e⟩ := f.flipTo_eq env i n b
  have he := hv.states.1
  rw [e]
  refine Fabric.Keeps.trans (f.keeps_modSurf i (hv.keeps_flip hb) (by rw [he]; rfl) ?_) (Fabric.keeps_logSurf _ _ _ _ _ _ _)
  rw [he]
  exact fun j hj => ⟨j, hj, rfl⟩

theorem Fabric.keeps_flipSelect (f : Fabric) (env : Env) (i : Fin 8) (n : Word) : f.Keeps (f.flipSelect env i n) := by
  unfold Fabric.flipSelect
  dsimp only
  split
  · exact .refl f
  · split
    · split
      · rename_i b hb
        have hp := List.dropLast_append_getLast? b hb
        obtain ⟨h1, h2⟩ := Fabric.keeps_skipBuffers env i n (f.surf i).present.dropLast [b] f hp.symm
        exact h1.trans (Fabric.keeps_flipTo _ _ _ _ (by rw [h2]; simp))
      · exact .refl f
    · split
      · rename_i b bs hb
        exact f.keeps_flipTo env i n (by rw [hb]; simp)
      · exact .refl f

theorem Fabric.keeps_closeOnBoundary (f : Fabric) (env : Env) (i : Fin 8) : f.Keeps (f.closeOnBoundary env i) := by
  unfold Fabric.closeOnBoundary
  dsimp only
  split
  · split
    · exact f.keeps_closeTrigger env i
    · exact .refl f
  · exact .refl f

theorem Fabric.keeps_boundaryRule (f : Fabric) (env : Env) (i : Fin 8) (n : Word) : f.Keeps (f.boundaryRule env i n) := by
  have ha : (f.surf i).ageShown = { f.surf i with bufs := (f.surf i).ageShown.bufs } := by
    unfold Surface.ageShown; split <;> rfl
  unfold Fabric.boundaryRule
  dsimp only
  refine Fabric.Keeps.trans ?_ (Fabric.keeps_closeOnBoundary _ _ _)
  refine Fabric.Keeps.trans ?_ (Fabric.keeps_flipSelect _ _ _ _)
  refine Fabric.Keeps.trans ?_ (Fabric.keeps_holdStep _ _ _)
  refine f.keeps_modSurf i (f.surf i).keeps_ageShown (by rw [ha]) ?_
  rw [ha]
  exact fun j hj => ⟨j, hj, rfl⟩

end Sys2Proof.Machine

namespace Sys2Proof.Machine

set_option Elab.async false

/-! ## Scanout reads -/

theorem Fabric.keeps_dropScan (f : Fabric) (e : ScanEntry) : f.Keeps (f.dropScan e) := by
  unfold Fabric.dropScan Fabric.dropScanParts
  refine Fabric.Keeps.trans ?_ (Fabric.keeps_dropRest _ _)
  split
  · exact f.keeps_modBuf _ _ fun _ => rfl
  · exact .refl f

/-- A shorter scanout queue. -/
theorem Fabric.keeps_scanQ (f : Fabric) {l : List ScanEntry} (h : l.length ≤ max f.scanQ.length 8) :
    f.Keeps { f with scanQ := l } where
  scanQ := h

theorem Fabric.keeps_passQ (f : Fabric) {l : List PassEntry} (h : l.length ≤ max f.passQ.length 16) :
    f.Keeps { f with passQ := l } where
  passQ := h

theorem Fabric.dropScan_scanQ (f : Fabric) (e : ScanEntry) : (f.dropScan e).scanQ = f.scanQ := by
  unfold Fabric.dropScan Fabric.dropScanParts
  rw [Fabric.dropRest_rest]
  split <;> rfl

theorem Fabric.foldl_dropScan_scanQ (l : List ScanEntry) (f : Fabric) : (l.foldl Fabric.dropScan f).scanQ = f.scanQ := by
  induction l generalizing f with
  | nil => rfl
  | cons e l ih => rw [List.foldl_cons, ih, Fabric.dropScan_scanQ]

theorem Fabric.keeps_dropScansOf (f : Fabric) (p : ScanEntry → Bool) : f.Keeps (f.dropScansOf p) := by
  unfold Fabric.dropScansOf
  refine (Fabric.keeps_foldl (f.scanQ.filter p) f fun g e _ => g.keeps_dropScan e).trans (Fabric.keeps_scanQ _ ?_)
  rw [Fabric.foldl_dropScan_scanQ]
  exact Nat.le_trans (List.length_filter_le _ _) (Nat.le_max_left _ _)

/-! ## The lanes -/

/-- A change of the head to a phase that does not wait. -/
theorem Surface.keeps_head (su : Surface) {h : HeadPhase} (hw : h ≠ .waiting) : su.Keeps { su with head := h } where
  buffers := fun hb => ⟨hb.1, hb.2.1, fun e => absurd e hw⟩

theorem Fabric.keeps_mapInto (f : Fabric) (i : Fin 8) (b : Nat) (q : LaneReq) : f.Keeps (f.mapInto i b q) :=
  f.keeps_modSurf i ((f.surf i).keeps_head nofun)

theorem Surface.states_of_filling_none {su : Surface} (h : su.filling = none) : su.states.count .filling = 0 := by
  rw [List.count_eq_zero]
  intro hm
  obtain ⟨r, hr, hst⟩ := List.mem_map.mp hm
  exact Surface.filling_none.mp h r hr hst

theorem Fabric.keeps_askBuffer (f : Fabric) (env : Env) (i : Fin 8) (q : LaneReq) (hl : (f.surf i).life = .attached) :
    f.Keeps (f.askBuffer env i q) := by
  unfold Fabric.askBuffer
  split
  · exact f.keeps_mapInto i _ q
  · rename_i hf
    split
    · rename_i b g hg
      exact f.keeps_obtainBuffer env i q hl hf hg
    · refine f.keeps_modSurf i { buffers := fun h => ⟨h.1, h.2.1, fun _ => ?_⟩ }
      have := Surface.states_of_filling_none hf
      rwa [← Surface.countIn_eq] at this

theorem Fabric.keeps_serveWaiting (f : Fabric) (env : Env) (i : Fin 8) (q : LaneReq) (hl : (f.surf i).life = .attached)
    (hw : (f.surf i).head = .waiting) : f.Keeps (f.serveWaiting env i q) := by
  unfold Fabric.serveWaiting
  split
  · rename_i b hb
    obtain ⟨r, hr, hst⟩ := Surface.chooseFree_some hb
    refine Fabric.keeps_open (.refl f) env i b q hl (fun h => ?_) fun h => ?_
    · exact (buffersSafe_iff.mp h).2.2 hw
    · have hs : (f.surf i).states[b]? = some .free := by rw [Surface.states_getElem?, hr]; simp [hst]
      rw [listsSafe_iff] at h
      exact ⟨fun hm => by simp [h.2.2.1 b hm] at hs, fun hm => by simp [h.2.2.2 b hm] at hs⟩
  · exact .refl f

theorem Surface.keeps_commitStream (su : Surface) (p : StreamPlan) : su.Keeps (su.commitStream p) := {}

theorem Fabric.keeps_bindHead (f : Fabric) (i : Fin 8) (m : Mapping) : f.Keeps (f.bindHead i m) := by
  unfold Fabric.bindHead
  split
  · split
    · exact f.keeps_modSurf i ((f.surf i).keeps_head nofun)
    · split
      · exact f.keeps_modSurf i (((f.surf i).keeps_commitStream _).trans (Surface.keeps_head _ nofun))
      · exact .refl f
  · exact .refl f

theorem Fabric.keeps_handleHead (f : Fabric) (i : Fin 8) (q : LaneReq) (bd : Binding) : f.Keeps (f.handleHead i q bd) := by
  unfold Fabric.handleHead
  split
  · exact .refl f
  · dsimp only
    have bind : ∀ (g : Fabric) sl bd', g.Keeps (g.modSurf i (fun su => { su with slot := sl, head := .bound bd' })) :=
      fun g sl bd' => g.keeps_modSurf i { buffers := fun hb => ⟨hb.1, hb.2.1, nofun⟩ }
    split
    · exact (f.keeps_createMerge i _).trans (bind _ _ _)
    · exact bind _ _ _

theorem Fabric.keeps_leaveLane (f : Fabric) (env : Env) (i : Fin 8) (q : LaneReq) : f.Keeps (f.leaveLane env i q) := by
  have h1 : f.Keeps (f.modSurf i (fun su => { su with lane := su.lane.tail, head := .fresh })) :=
    f.keeps_modSurf i {
      buffers := fun hb => ⟨hb.1, hb.2.1, nofun⟩
      lane := by simp only [List.length_tail]; omega }
  have h2 := h1.trans (Fabric.keeps_markDone _ q.id)
  unfold Fabric.leaveLane
  dsimp only
  split
  · split
    · rename_i b hb
      exact h2.trans (Fabric.keeps_applyClose _ env i hb)
    · exact h2.trans (Fabric.keeps_modSurf _ i {})
  · exact h2

/-! The four stages of `Fabric.stepHead`, each a function of its own. -/

/-- The first stage: a fresh head asks for a buffer, a waiting one is served. -/
def Fabric.askStage (f : Fabric) (env : Env) (i : Fin 8) (q : LaneReq) : Fabric :=
  match (f.surf i).head with
  | .fresh => f.askBuffer env i q
  | .waiting => f.serveWaiting env i q
  | _ => f

/-- The second stage: a mapped head is bound where it can be. -/
def Fabric.bindStage (f : Fabric) (i : Fin 8) : Fabric :=
  match (f.surf i).head with
  | .mapped m => f.bindHead i m
  | _ => f

/-- The third stage: the converter works on a bound head. -/
def Fabric.handleStage (f : Fabric) (i : Fin 8) (q : LaneReq) : Fabric :=
  match (f.surf i).head with
  | .bound bd => f.handleHead i q bd
  | _ => f

/-- The last stage: a bound head with nothing left leaves the lane. -/
def Fabric.leaveStage (f : Fabric) (env : Env) (i : Fin 8) (q : LaneReq) : Fabric :=
  match (f.surf i).head with
  | .bound bd => if bd.parts = [] ∧ bd.todo = [] then f.leaveLane env i q else f
  | _ => f

theorem Fabric.stepHead_eq (f : Fabric) (env : Env) (i : Fin 8) (q : LaneReq) :
    f.stepHead env i q = (((f.askStage env i q).bindStage i).handleStage i q).leaveStage env i q := rfl

theorem Fabric.keeps_askStage (f : Fabric) (env : Env) (i : Fin 8) (q : LaneReq) (hl : (f.surf i).life = .attached) :
    f.Keeps (f.askStage env i q) := by
  unfold Fabric.askStage
  split
  · exact f.keeps_askBuffer env i q hl
  · exact f.keeps_serveWaiting env i q hl ‹_›
  · exact .refl f

theorem Fabric.keeps_bindStage (f : Fabric) (i : Fin 8) : f.Keeps (f.bindStage i) := by
  unfold Fabric.bindStage
  split
  · exact f.keeps_bindHead i _
  · exact .refl f

theorem Fabric.keeps_handleStage (f : Fabric) (i : Fin 8) (q : LaneReq) : f.Keeps (f.handleStage i q) := by
  unfold Fabric.handleStage
  split
  · exact f.keeps_handleHead i q _
  · exact .refl f

theorem Fabric.keeps_leaveStage (f : Fabric) (env : Env) (i : Fin 8) (q : LaneReq) : f.Keeps (f.leaveStage env i q) := by
  unfold Fabric.leaveStage
  split
  · split
    · exact f.keeps_leaveLane env i q
    · exact .refl f
  · exact .refl f

theorem Fabric.keeps_stepHead (f : Fabric) (env : Env) (i : Fin 8) (q : LaneReq) (hl : (f.surf i).life = .attached) :
    f.Keeps (f.stepHead env i q) :=
  (((f.keeps_askStage env i q hl).trans (Fabric.keeps_bindStage _ i)).trans (Fabric.keeps_handleStage _ i q)).trans
    (Fabric.keeps_leaveStage _ env i q)

theorem Fabric.keeps_runLane (env : Env) (i : Fin 8) (n : Nat) (f : Fabric) : f.Keeps (Fabric.runLane env i n f) := by
  induction n generalizing f with
  | zero => exact .refl f
  | succ n ih =>
    unfold Fabric.runLane
    split
    · rename_i hl
      split
      · exact (f.keeps_stepHead env i _ hl).trans (ih _)
      · exact .refl f
    · exact .refl f

theorem Fabric.keeps_presentMerge (f : Fabric) (i : Fin 8) : f.Keeps (f.presentMerge i) := by
  unfold Fabric.presentMerge
  split
  · rename_i m hm
    split
    · exact Fabric.Keeps.modSurf (k := { f with nextStamp := f.nextStamp + 1 }) {} i
        (Surface.keeps_modMerge _ _ _)
    · exact .refl f
  · exact .refl f

theorem Fabric.keeps_settleSurface (f : Fabric) (env : Env) (i : Fin 8) : f.Keeps (Fabric.settleSurface env f i) :=
  (Fabric.keeps_runLane env i _ f).trans (Fabric.keeps_presentMerge _ i)

theorem Fabric.keeps_leaveScans (n : Nat) (f : Fabric) : f.Keeps (Fabric.leaveScans n f) := by
  induction n generalizing f with
  | zero => exact .refl f
  | succ n ih =>
    unfold Fabric.leaveScans
    split
    · rename_i e es hq
      split
      · refine (Fabric.Keeps.trans ?_ (Fabric.keeps_markDone { f with scanQ := es } e.id)).trans (ih _)
        exact f.keeps_scanQ (l := es) (by rw [hq]; simp only [List.length_cons]; omega)
      · exact .refl f
    · exact .refl f

theorem Fabric.keeps_settle (f : Fabric) (env : Env) : f.Keeps (f.settle env) := by
  unfold Fabric.settle
  refine Fabric.Keeps.trans ?_ (Fabric.keeps_runEngine 5 _)
  refine Fabric.Keeps.trans ?_ (Fabric.keeps_leaveScans _ _)
  exact Fabric.keeps_foldl allSurfaces f fun g i _ => g.keeps_settleSurface env i

end Sys2Proof.Machine

/-! # What the intake, an issue and a completion keep -/

namespace Sys2Proof.Machine

set_option Elab.async false

/-! ## The intake -/

theorem Fabric.keeps_answerAtOnce (f : Fabric) (r : UpRequest) (code : UpCode) : f.Keeps (f.answerAtOnce r code) :=
  f.keeps_records f.records _

theorem Fabric.keeps_openRecord (f : Fabric) (r : UpRequest) (data : List Byte) : f.Keeps (f.openRecord r data) := {}

theorem Fabric.keeps_offer (f : Fabric) (r : UpRequest) : f.Keeps (f.offer r) := {}

theorem Fabric.keeps_acceptPass (f : Fabric) (r : UpRequest) (h : f.passQ.length < 16) : f.Keeps (f.acceptPass r) := by
  unfold Fabric.acceptPass
  refine Fabric.Keeps.trans ?_ (Fabric.keeps_openRecord _ _ _)
  exact f.keeps_passQ (by simp only [List.length_append, List.length_singleton]; omega)

theorem Fabric.keeps_acceptScan (f : Fabric) (i : Fin 8) (r : UpRequest) (h : f.scanQ.length < 8) :
    f.Keeps (f.acceptScan i r) := by
  have put : ∀ (g : Fabric) (e : ScanEntry), g.scanQ = f.scanQ → g.Keeps { g with scanQ := g.scanQ ++ [e] } :=
    fun g e hg => g.keeps_scanQ (by rw [hg]; simp only [List.length_append, List.length_singleton]; omega)
  unfold Fabric.acceptScan
  dsimp only
  refine Fabric.Keeps.trans ?_ (Fabric.keeps_openRecord _ _ _)
  split
  · refine Fabric.Keeps.trans ?_ (put _ _ rfl)
    exact f.keeps_modBuf i _ fun _ => rfl
  · exact put f _ rfl

theorem Fabric.keeps_acceptProducer (f : Fabric) (i : Fin 8) (r : UpRequest) : f.Keeps (f.acceptProducer i r) := by
  unfold Fabric.acceptProducer
  split
  · exact f.keeps_answerAtOnce r _
  · split
    · exact f.keeps_answerAtOnce r _
    · rename_i _ hl
      refine Fabric.Keeps.trans ?_ (Fabric.keeps_openRecord _ _ _)
      have hl : (f.surf i).lane.length < 8 := Nat.lt_of_not_le hl
      exact f.keeps_modSurf i {
        lane := by simp only [List.length_append, List.length_singleton]; omega }

theorem Fabric.keeps_accept (f : Fabric) (env : Env) (r : UpRequest) (h : f.mayAccept env r = true) :
    f.Keeps (f.accept env r) := by
  unfold Fabric.mayAccept at h
  obtain ⟨-, h⟩ := Bool.and_eq_true_iff.mp h
  unfold Fabric.accept
  split <;> rename_i hc <;> simp only [hc] at h
  · exact f.keeps_answerAtOnce r _
  · exact f.keeps_answerAtOnce r _
  · exact f.keeps_acceptPass r (of_decide_eq_true h)
  · exact f.keeps_acceptScan _ r (of_decide_eq_true h)
  · exact f.keeps_acceptProducer _ r

theorem Fabric.keeps_pump (env : Env) (l : List UpRequest) (f : Fabric) : f.Keeps (Fabric.pump env l f) := by
  induction l generalizing f with
  | nil => exact {}
  | cons r rs ih =>
    unfold Fabric.pump
    split
    · exact ((f.keeps_accept env r ‹_›).trans (Fabric.keeps_settle _ env)).trans (ih _)
    · exact {}

theorem Fabric.keeps_finish (f : Fabric) (env : Env) : f.Keeps (f.finish env) :=
  (f.keeps_settle env).trans (Fabric.keeps_pump env _ _)

/-! ## The owner learns of an issue -/

theorem Fabric.keeps_partIssued (f : Fabric) (id : Nat) : f.Keeps (f.partIssued id) := f.keeps_modRecord id _

theorem Fabric.keeps_learnScan (f : Fabric) : f.Keeps f.learnScan := by
  unfold Fabric.learnScan
  split
  · rename_i e es hq
    dsimp only
    have hn : f.scanQ.length = es.length + 1 := by rw [hq]; rfl
    split
    · refine Fabric.Keeps.trans ?_ (Fabric.keeps_markDone _ _)
      exact (f.keeps_partIssued e.id).trans (Fabric.keeps_scanQ _ (show es.length ≤ max f.scanQ.length 8 by omega))
    · refine (f.keeps_partIssued e.id).trans (Fabric.keeps_scanQ _ ?_)
      show es.length + 1 ≤ max f.scanQ.length 8
      omega
  · exact .refl f

theorem Fabric.keeps_learnPass (f : Fabric) : f.Keeps f.learnPass := by
  unfold Fabric.learnPass
  split
  · rename_i e es hq
    dsimp only
    have hn : f.passQ.length = es.length + 1 := by rw [hq]; rfl
    split
    · refine Fabric.Keeps.trans ?_ (Fabric.keeps_markDone _ _)
      exact (f.keeps_partIssued e.id).trans (Fabric.keeps_passQ _ (show es.length ≤ max f.passQ.length 16 by omega))
    · refine (f.keeps_partIssued e.id).trans (Fabric.keeps_passQ _ ?_)
      show es.length + 1 ≤ max f.passQ.length 16
      omega
  · exact .refl f

theorem Surface.keeps_learnMerge (su : Surface) (m : Merge) : su.Keeps (su.learnMerge m) := by
  unfold Surface.learnMerge
  split
  · exact su.keeps_modMerge _ _
  · exact (su.keeps_modMerge _ _).trans (Surface.keeps_modBuf _ m.buf fun _ => rfl)

theorem Surface.learnMerge_rest (su : Surface) (m : Merge) : su.SameButMerges (su.learnMerge m) := by
  unfold Surface.learnMerge
  split <;> rfl

theorem Fabric.keeps_modChunk (f : Fabric) (id : Nat) (g : Chunk → Chunk) : f.Keeps (f.modChunk id g) :=
  f.keeps_slots _ (by simp)

theorem Fabric.keeps_learnChunk (f : Fabric) (ch : Chunk) : f.Keeps (f.learnChunk ch) := by
  unfold Fabric.learnChunk
  split
  all_goals exact (f.keeps_modChunk _ _).trans (Fabric.keeps_modBuf _ _ _ fun _ => rfl)

theorem Surface.keeps_advanceHead (su : Surface) : su.Keeps su.advanceHead := by
  unfold Surface.advanceHead
  split
  · exact su.keeps_head nofun
  · split
    · exact (su.keeps_commitStream _).trans (Surface.keeps_head _ nofun)
    · exact .refl su
  · exact .refl su

theorem Surface.advanceHead_life (su : Surface) : su.advanceHead.life = su.life ∧ su.advanceHead.deferred = su.deferred := by
  unfold Surface.advanceHead
  split
  · exact ⟨rfl, rfl⟩
  · split <;> exact ⟨rfl, rfl⟩
  · exact ⟨rfl, rfl⟩

theorem Fabric.keeps_learnLane (f : Fabric) (i : Fin 8) (q : LaneReq) (b : Nat) (run : Run) :
    f.Keeps (f.learnLane i q b run) := by
  unfold Fabric.learnLane
  refine (f.keeps_partIssued q.id).trans (Fabric.keeps_modSurf _ i ?_ ?_ ?_)
  · refine Surface.Keeps.trans (Surface.keeps_modBuf _ b ?_) (Surface.keeps_advanceHead _)
    intro r; split <;> rfl
  · exact (Surface.advanceHead_life _).1
  · rw [(Surface.advanceHead_life _).2]
    exact fun j hj => ⟨j, hj, rfl⟩

theorem Surface.SameButMerges.life_deferred {su su' : Surface} (h : su.SameButMerges su') :
    su'.life = su.life ∧ su'.deferred = su.deferred := by
  constructor <;> rw [h]

theorem Fabric.keeps_modMerges (f : Fabric) (i : Fin 8) {g : Surface → Surface} (h : (f.surf i).Keeps (g (f.surf i)))
    (hs : (f.surf i).SameButMerges (g (f.surf i))) : f.Keeps (f.modSurf i g) := by
  obtain ⟨hl, hd⟩ := hs.life_deferred
  exact f.keeps_modSurf i h hl (by rw [hd]; exact fun j hj => ⟨j, hj, rfl⟩)

theorem Fabric.keeps_learn (f : Fabric) (c : Claim) : f.Keeps (f.learn c) := by
  unfold Fabric.learn
  cases c with
  | scanout => exact f.keeps_learnScan
  | pass => exact f.keeps_learnPass
  | merge i =>
    dsimp only
    split
    · exact f.keeps_modMerges i (Surface.keeps_learnMerge _ _) (Surface.learnMerge_rest _ _)
    · exact .refl f
  | copy =>
    dsimp only
    split
    · exact f.keeps_learnChunk _
    · exact .refl f
  | lane i =>
    dsimp only
    split
    · exact f.keeps_learnLane i _ _ _
    · exact .refl f

/-! ## The end of an access -/

theorem Fabric.keeps_deliver (f : Fabric) (t : Tables) (e : TagEntry) (res : AccessEnd) : f.Keeps (f.deliver t e res) := by
  have part : f.Keeps (match e.upRef with
      | some id => f.partEnded id res.worst (f.areaWriter e res)
      | none => f) := by
    split
    · exact f.keeps_partEnded _ _ _
    · exact .refl f
  have merge : f.Keeps (match e.surface, e.route with
      | some i, .merge id => f.modSurf i (fun su => su.mergeEnded t id res)
      | _, _ => f) := by
    split
    · rename_i i id _ _
      exact f.keeps_modMerges i ((f.surf i).keeps_mergeEnded t id res).1 ((f.surf i).keeps_mergeEnded t id res).2
    · exact .refl f
  unfold Fabric.deliver
  cases e.kind
  case pass => exact part
  case producerWrite => exact part
  case producerRead => exact part
  case scanoutRead => exact part
  case mergeRead => exact merge
  case mergeWrite => exact merge
  all_goals exact .refl f

theorem Fabric.keeps_logFailure (f : Fabric) (env : Env) (e : TagEntry) (t : Fin 32) (res : AccessEnd) :
    f.Keeps (f.logFailure env e t res) := by
  unfold Fabric.logFailure
  split
  · exact .refl f
  all_goals try exact f.keeps_logTag env _ e t _
  exact .refl f

/-! The two matches of `Fabric.failureEffects`, each a function of its own. -/

/-- A failed access sets the damaged flag of the buffer that `damagedBuffer` names. -/
def Fabric.damageOf (f : Fabric) (e : TagEntry) : Fabric :=
  match e.surface, f.damagedBuffer e with
  | some i, some b => f.modBuf i b (fun r => { r with damaged := true })
  | _, _ => f

/-- A failed copy access marks its stripe's fault. -/
def Fabric.copyFaultOf (f : Fabric) (env : Env) (e : TagEntry) : Fabric :=
  match e.kind, f.chunkOf e with
  | .copyRead, some ch | .copyWrite, some ch => f.copyFault env ch
  | _, _ => f

theorem Fabric.failureEffects_eq (f : Fabric) (env : Env) (e : TagEntry) (t : Fin 32) (res : AccessEnd) :
    f.failureEffects env e t res =
      if res.failed then ((f.damageOf e).logFailure env e t res).copyFaultOf env e else f := rfl

theorem Fabric.keeps_damageOf (f : Fabric) (e : TagEntry) : f.Keeps (f.damageOf e) := by
  unfold Fabric.damageOf
  split
  · exact f.keeps_modBuf _ _ fun _ => rfl
  · exact .refl f

theorem Fabric.keeps_copyFaultOf (f : Fabric) (env : Env) (e : TagEntry) : f.Keeps (f.copyFaultOf env e) := by
  unfold Fabric.copyFaultOf
  split
  · exact f.keeps_copyFault env _
  · exact f.keeps_copyFault env _
  · exact .refl f

theorem Fabric.keeps_failureEffects (f : Fabric) (env : Env) (e : TagEntry) (t : Fin 32) (res : AccessEnd) :
    f.Keeps (f.failureEffects env e t res) := by
  rw [f.failureEffects_eq]
  split
  · exact ((f.keeps_damageOf e).trans (Fabric.keeps_logFailure _ env e t res)).trans (Fabric.keeps_copyFaultOf _ env e)
  · exact .refl f

theorem BufRec.countDown_st (r : BufRec) (k : OwnerKind) : (r.countDown k).st = r.st := by cases k <;> rfl

theorem Fabric.keeps_countDown (f : Fabric) (e : TagEntry) : f.Keeps (f.countDown e) := by
  unfold Fabric.countDown
  split
  · exact f.keeps_modBuf _ _ fun r => r.countDown_st _
  · exact .refl f

theorem Fabric.keeps_chunkEnded (f : Fabric) (e : TagEntry) (res : AccessEnd) : f.Keeps (f.chunkEnded e res) := by
  unfold Fabric.chunkEnded
  split
  · split
    · split
      · exact f.keeps_endChunk _
      · exact f.keeps_modChunk _ _
    · exact f.keeps_endChunk _
  · exact f.keeps_endChunk _
  · exact .refl f

theorem Fabric.keeps_complete (f : Fabric) (env : Env) (tb : Tables) (e : TagEntry) (t : Fin 32) (res : AccessEnd) :
    f.Keeps (f.complete env tb e t res) := by
  have upTo : f.Keeps ((((f.deliver tb e res).failureEffects env e t res).countDown e).chunkEnded e res) :=
    (((f.keeps_deliver tb e res).trans (Fabric.keeps_failureEffects _ env e t res)).trans
      (Fabric.keeps_countDown _ e)).trans (Fabric.keeps_chunkEnded _ e res)
  unfold Fabric.complete
  dsimp only
  split
  · exact upTo.trans (Fabric.keeps_bufferTests _ env _)
  · exact upTo

end Sys2Proof.Machine

/-! # What the larger operations of the surface table keep -/

namespace Sys2Proof.Machine

set_option Elab.async false

/-! ## Cancellation ends every job of a surface -/

/-- Every job of `g` stands for one of `f`, of the same surface and target and in the same list. -/
structure Fabric.JobsFrom (f g : Fabric) : Prop where
  queue : ∀ j ∈ g.copy.queue, ∃ j' ∈ f.copy.queue, j'.surface = j.surface ∧ j'.target = j.target := by
    exact fun j hj => ⟨j, hj, rfl, rfl⟩
  deferred : ∀ l, ∀ j ∈ (g.surf l).deferred, ∃ j' ∈ (f.surf l).deferred, j'.surface = j.surface ∧ j'.target = j.target := by
    exact fun _ j hj => ⟨j, hj, rfl, rfl⟩

theorem Fabric.JobsFrom.refl (f : Fabric) : f.JobsFrom f := {}

theorem Fabric.JobsFrom.trans {f g h : Fabric} (a : f.JobsFrom g) (b : g.JobsFrom h) : f.JobsFrom h where
  queue := fun j hj => by
    obtain ⟨j', hj', e1, e2⟩ := b.queue j hj
    obtain ⟨j'', hj'', e3, e4⟩ := a.queue j' hj'
    exact ⟨j'', hj'', e3.trans e1, e4.trans e2⟩
  deferred := fun l j hj => by
    obtain ⟨j', hj', e1, e2⟩ := b.deferred l j hj
    obtain ⟨j'', hj'', e3, e4⟩ := a.deferred l j' hj'
    exact ⟨j'', hj'', e3.trans e1, e4.trans e2⟩

/-- A change of one surface that adds no job. -/
theorem Fabric.jobsFrom_modSurf (f : Fabric) (i : Fin 8) {g : Surface → Surface}
    (h : ∀ j ∈ (g (f.surf i)).deferred, ∃ j' ∈ (f.surf i).deferred, j'.surface = j.surface ∧ j'.target = j.target) :
    f.JobsFrom (f.modSurf i g) where
  deferred := fun l j hj => by
    by_cases e : i = l
    · subst e; rw [f.surf_modSurf_same] at hj; exact h j hj
    · rw [f.surf_modSurf_other g e] at hj; exact ⟨j, hj, rfl, rfl⟩

theorem Fabric.jobsFrom_modBuf (f : Fabric) (i : Fin 8) (b : Nat) (g : BufRec → BufRec) : f.JobsFrom (f.modBuf i b g) :=
  f.jobsFrom_modSurf i fun j hj => ⟨j, hj, rfl, rfl⟩

theorem Fabric.jobsFrom_modJob (f : Fabric) (i : Fin 8) (b : Nat) {g : CopyJob → CopyJob}
    (hg : ∀ j, (g j).surface = j.surface ∧ (g j).target = j.target) : f.JobsFrom (f.modJob i b g) := by
  have from_map : ∀ l : List CopyJob, ∀ j ∈ l.map (fun j => if j.isFor i b then g j else j),
      ∃ j' ∈ l, j'.surface = j.surface ∧ j'.target = j.target := by
    intro l j hj
    obtain ⟨j', hj', rfl⟩ := List.mem_map.mp hj
    refine ⟨j', hj', ?_⟩
    split
    · exact ⟨(hg j').1.symm, (hg j').2.symm⟩
    · exact ⟨rfl, rfl⟩
  unfold Fabric.modJob
  refine Fabric.JobsFrom.trans (g := { f with copy := { f.copy with queue := f.copy.queue.map _ } }) ⟨from_map _, ?_⟩
    (Fabric.jobsFrom_modSurf _ i (from_map _))
  exact fun _ j hj => ⟨j, hj, rfl, rfl⟩

theorem Fabric.jobsFrom_makeCurrent (f : Fabric) (j : CopyJob) (k : Nat) : f.JobsFrom (f.makeCurrent j k) := by
  unfold Fabric.makeCurrent
  exact (f.jobsFrom_modJob j.surface j.target
    (g := fun q => q.modStripe k (fun r => { r with st := .copying })) fun _ => ⟨rfl, rfl⟩).trans {}

theorem Fabric.jobsFrom_select (f : Fabric) : f.JobsFrom f.select := by
  unfold Fabric.select
  split
  · exact .refl f
  · dsimp only
    split
    · split
      · exact f.jobsFrom_makeCurrent _ _
      · exact .refl f
    · split
      · exact .refl f
      · split
        · exact f.jobsFrom_makeCurrent _ _
        · exact .refl f

theorem Fabric.jobsFrom_dropCurrent (f : Fabric) (i : Fin 8) (b : Nat) : f.JobsFrom (f.dropCurrent i b) := by
  unfold Fabric.dropCurrent
  split
  · split
    · exact Fabric.JobsFrom.trans (g := { f with copy := { f.copy with current := none } }) {} (Fabric.jobsFrom_select _)
    · exact .refl f
  · exact .refl f

theorem Fabric.jobsFrom_removeJob (f : Fabric) (i : Fin 8) (b : Nat) : f.JobsFrom (f.removeJob i b) := by
  unfold Fabric.removeJob
  refine Fabric.JobsFrom.trans (g := { f with copy := { f.copy with queue := f.copy.queue.filter _ } }) ⟨?_, ?_⟩
    (Fabric.jobsFrom_modSurf _ i ?_)
  · exact fun j hj => ⟨j, List.mem_of_mem_filter hj, rfl, rfl⟩
  · exact fun _ j hj => ⟨j, hj, rfl, rfl⟩
  · exact fun j hj => ⟨j, List.mem_of_mem_filter hj, rfl, rfl⟩

theorem CopyJob.isFor_iff {j : CopyJob} {i : Fin 8} {b : Nat} : j.isFor i b = true ↔ j.surface = i ∧ j.target = b := by
  simp [CopyJob.isFor]

theorem Fabric.jobOf_none {f : Fabric} {i : Fin 8} {b : Nat} :
    f.jobOf i b = none ↔ ∀ j ∈ f.copy.queue ++ (f.surf i).deferred, ¬ (j.surface = i ∧ j.target = b) := by
  simp only [Fabric.jobOf, List.find?_eq_none, CopyJob.isFor_iff]

theorem Fabric.JobsFrom.jobOf_none {f g : Fabric} (h : f.JobsFrom g) {i : Fin 8} {b : Nat} (hn : f.jobOf i b = none) :
    g.jobOf i b = none := by
  rw [Fabric.jobOf_none] at hn ⊢
  intro j hj ⟨e1, e2⟩
  rcases List.mem_append.mp hj with hj | hj
  · obtain ⟨j', hj', e3, e4⟩ := h.queue j hj
    exact hn j' (List.mem_append_left _ hj') ⟨e3.trans e1, e4.trans e2⟩
  · obtain ⟨j', hj', e3, e4⟩ := h.deferred i j hj
    exact hn j' (List.mem_append_right _ hj') ⟨e3.trans e1, e4.trans e2⟩

theorem Fabric.jobOf_removeJob (f : Fabric) (i : Fin 8) (b : Nat) : (f.removeJob i b).jobOf i b = none := by
  rw [Fabric.jobOf_none]
  unfold Fabric.removeJob
  rw [Fabric.surf_modSurf_same]
  intro j hj hb
  have := CopyJob.isFor_iff.mpr hb
  rcases List.mem_append.mp hj with hj | hj
  · exact absurd (List.of_mem_filter (show j ∈ f.copy.queue.filter _ from hj)) (by simp [this])
  · exact absurd (List.of_mem_filter hj) (by simp [this])

theorem Fabric.jobsFrom_cancelJob (f : Fabric) (i : Fin 8) (b : Nat) :
    f.JobsFrom (f.cancelJob i b false) ∧ (f.cancelJob i b false).jobOf i b = none := by
  unfold Fabric.cancelJob
  split
  · exact ⟨.refl f, ‹_›⟩
  · rename_i j _
    have rest : (f.removeJob i b).JobsFrom
        ((((f.removeJob i b).dropCurrent i b).cancelChunks i b).modBuf i j.source (fun r => { r with hold := false })) := by
      refine Fabric.JobsFrom.trans (Fabric.jobsFrom_dropCurrent _ i b) (Fabric.JobsFrom.trans ?_ (Fabric.jobsFrom_modBuf _ _ _ _))
      exact {}
    exact ⟨(f.jobsFrom_removeJob i b).trans rest, rest.jobOf_none (f.jobOf_removeJob i b)⟩

theorem Fabric.foldl_cancelJob (i : Fin 8) (l : List CopyJob) (f : Fabric) :
    f.JobsFrom (l.foldl (fun g j => g.cancelJob i j.target false) f) ∧
      ∀ j ∈ l, (l.foldl (fun g j => g.cancelJob i j.target false) f).jobOf i j.target = none := by
  induction l generalizing f with
  | nil => exact ⟨.refl f, by simp⟩
  | cons a l ih =>
    obtain ⟨h1, h2⟩ := f.jobsFrom_cancelJob i a.target
    obtain ⟨k1, k2⟩ := ih (f.cancelJob i a.target false)
    refine ⟨h1.trans k1, fun j hj => ?_⟩
    rcases List.mem_cons.mp hj with rfl | hj
    · exact k1.jobOf_none h2
    · exact k2 j hj

/-- R149: after the cancellation no job of the surface is left. -/
theorem Fabric.jobsBut_cancelJobs {f : Fabric} {D : Fin 8 → Prop} {i : Fin 8} (h : f.JobsBut (fun l => D l ∨ l = i)) :
    (f.cancelJobs i).JobsBut D := by
  have hk := (f.keeps_cancelJobs i).jobs _ h
  obtain ⟨hf, hn⟩ := f.foldl_cancelJob i (f.jobsOf i)
  change f.JobsFrom (f.cancelJobs i) at hf
  change ∀ j ∈ f.jobsOf i, (f.cancelJobs i).jobOf i j.target = none at hn
  have gone : ∀ j ∈ (f.cancelJobs i).copy.queue ++ ((f.cancelJobs i).surf i).deferred, j.surface ≠ i := by
    intro j hj e
    have : ∃ j' ∈ f.jobsOf i, j'.target = j.target := by
      rcases List.mem_append.mp hj with hj | hj
      · obtain ⟨j', hj', e1, e2⟩ := hf.queue j hj
        exact ⟨j', List.mem_append_left _ (by simp [hj', e1, e]), e2⟩
      · obtain ⟨j', hj', -, e2⟩ := hf.deferred i j hj
        exact ⟨j', List.mem_append_right _ hj', e2⟩
    obtain ⟨j', hj', ht⟩ := this
    exact Fabric.jobOf_none.mp (hn j' hj') j hj ⟨e, ht.symm⟩
  refine ⟨fun j hj => ?_, fun l j hj => ?_⟩
  · rcases hk.1 j hj with h | h | h
    · exact .inl h
    · exact .inr h
    · exact absurd h (gone j (List.mem_append_left _ hj))
  · obtain ⟨e, h | h | h⟩ := hk.2 l j hj
    · exact ⟨e, .inl h⟩
    · exact ⟨e, .inr h⟩
    · subst h
      exact absurd e (gone j (List.mem_append_right _ hj))

/-! ## DETACH -/

theorem Fabric.keeps_dropLane (f : Fabric) (i : Fin 8) : f.Keeps (f.dropLane i) := by
  unfold Fabric.dropLane
  refine (Fabric.keeps_foldl _ f fun g q _ => g.keeps_dropRest q.id).trans (Fabric.keeps_modSurf _ i ?_)
  exact { buffers := fun hb => ⟨hb.1, hb.2.1, nofun⟩, lane := Nat.zero_le _ }

theorem BufRec.leaveUse_st (r : BufRec) : r.leaveUse.st = .free ∨ r.leaveUse.st = .draining := by
  obtain e | e := r.leaveUse_cases <;> simp [e]

theorem Surface.keeps_retireBuffers (su : Surface) : su.Keeps su.retireBuffers where
  buffers := fun h => by
    rw [buffersSafe_iff] at h ⊢
    have none_left : ∀ st : BufState, st.inUse = true → su.retireBuffers.states.count st = 0 := by
      intro st hst
      rw [List.count_eq_zero]
      intro hm
      obtain ⟨r, hr, rfl⟩ := List.mem_map.mp hm
      obtain ⟨r', -, rfl⟩ := List.mem_map.mp hr
      split at hst
      · obtain e | e := r'.leaveUse_st <;> rw [e] at hst <;> exact absurd hst (by decide)
      · contradiction
    rw [none_left .filling rfl, none_left .shown rfl]
    exact ⟨by omega, by omega, fun _ => rfl⟩
  lists := fun _ => by
    rw [listsSafe_iff]
    exact ⟨List.nodup_nil, List.nodup_nil, nofun, nofun⟩
  holdWait := Nat.zero_le _

end Sys2Proof.Machine

/-! # What the copy engine's operations leave as it is, and the rest of the operations that keep -/

namespace Sys2Proof.Machine

set_option Elab.async false

/-! ## Operations that touch the engine and the jobs alone -/

/-- `g` is `f` but for the engine and the deferred jobs. -/
structure Fabric.SameButJobs (f g : Fabric) : Prop where
  rest : g = { f with copy := g.copy, surfaces := g.surfaces }
  surf : ∀ l, g.surf l = { f.surf l with deferred := (g.surf l).deferred }

theorem Fabric.SameButJobs.refl (f : Fabric) : f.SameButJobs f := ⟨rfl, fun _ => rfl⟩

theorem Fabric.SameButJobs.trans {f g h : Fabric} (a : f.SameButJobs g) (b : g.SameButJobs h) : f.SameButJobs h where
  rest := by rw [b.rest, a.rest]
  surf := fun l => by rw [b.surf l, a.surf l]

theorem Fabric.sameButJobs_copy (f : Fabric) (c : CopyEngine) : f.SameButJobs { f with copy := c } := ⟨rfl, fun _ => rfl⟩

theorem Fabric.sameButJobs_deferred (f : Fabric) (i : Fin 8) (g : Surface → List CopyJob) :
    f.SameButJobs (f.modSurf i (fun su => { su with deferred := g su })) where
  rest := rfl
  surf := fun l => by
    by_cases e : i = l
    · subst e; rw [f.surf_modSurf_same]
    · rw [f.surf_modSurf_other _ e]

theorem Fabric.sameButJobs_lists (f : Fabric) (c : CopyEngine) (i : Fin 8) (g : Surface → List CopyJob) :
    f.SameButJobs (Fabric.modSurf { f with copy := c } i (fun su => { su with deferred := g su })) :=
  (f.sameButJobs_copy c).trans (Fabric.sameButJobs_deferred _ i g)

theorem Fabric.sameButJobs_modJob (f : Fabric) (i : Fin 8) (b : Nat) (g : CopyJob → CopyJob) :
    f.SameButJobs (f.modJob i b g) :=
  f.sameButJobs_lists { f.copy with queue := f.copy.queue.map (fun j => if j.isFor i b then g j else j) } i
    (fun su => su.deferred.map (fun j : CopyJob => if j.isFor i b then g j else j))

theorem Fabric.sameButJobs_removeJob (f : Fabric) (i : Fin 8) (b : Nat) : f.SameButJobs (f.removeJob i b) :=
  f.sameButJobs_lists { f.copy with queue := f.copy.queue.filter (fun j => !j.isFor i b) } i
    fun su => su.deferred.filter (fun j => !j.isFor i b)

theorem Fabric.sameButJobs_promoteDeferred (f : Fabric) (i : Fin 8) : f.SameButJobs (f.promoteDeferred i) := by
  unfold Fabric.promoteDeferred
  split
  · exact .refl f
  · exact f.sameButJobs_lists _ i fun _ => _

theorem Fabric.sameButJobs_makeCurrent (f : Fabric) (j : CopyJob) (k : Nat) : f.SameButJobs (f.makeCurrent j k) :=
  (f.sameButJobs_modJob j.surface j.target _).trans (Fabric.sameButJobs_copy _ _)

theorem Fabric.sameButJobs_select (f : Fabric) : f.SameButJobs f.select := by
  unfold Fabric.select
  split
  · exact .refl f
  · dsimp only
    split
    · split
      · exact f.sameButJobs_makeCurrent _ _
      · exact .refl f
    · split
      · exact .refl f
      · split
        · exact f.sameButJobs_makeCurrent _ _
        · exact .refl f

theorem Fabric.sameButJobs_startChunk (f : Fabric) (c : CurrentStripe) : f.SameButJobs (f.startChunk c) := by
  unfold Fabric.startChunk
  split
  · exact f.sameButJobs_copy _
  · exact (f.sameButJobs_modJob c.surface c.target _).trans (Fabric.sameButJobs_copy _ _)

theorem Fabric.sameButJobs_runEngine (n : Nat) (f : Fabric) : f.SameButJobs (Fabric.runEngine n f) := by
  induction n generalizing f with
  | zero => exact .refl f
  | succ n ih =>
    unfold Fabric.runEngine
    dsimp only
    split
    · split
      · exact (f.sameButJobs_select.trans (Fabric.sameButJobs_startChunk _ _)).trans (ih _)
      · exact f.sameButJobs_select
    · exact f.sameButJobs_select

theorem Fabric.sameButJobs_dropCurrent (f : Fabric) (i : Fin 8) (b : Nat) : f.SameButJobs (f.dropCurrent i b) := by
  unfold Fabric.dropCurrent
  split
  · split
    · exact (f.sameButJobs_copy _).trans (Fabric.sameButJobs_select _)
    · exact .refl f
  · exact .refl f

theorem Fabric.sameButJobs_cancelChunks (f : Fabric) (i : Fin 8) (b : Nat) : f.SameButJobs (f.cancelChunks i b) :=
  f.sameButJobs_copy _

/-- What a cancellation leaves: a surface keeps all but its deferred jobs and, where the job was its own, the hold of the
source. -/
theorem Fabric.cancelJob_eq {f : Fabric} {i : Fin 8} {b : Nat} {promote : Bool} {j : CopyJob} (hj : f.jobOf i b = some j) :
    ∃ g, f.SameButJobs g ∧ f.cancelJob i b promote = g.modBuf i j.source (fun r => { r with hold := false }) := by
  unfold Fabric.cancelJob
  rw [hj]
  refine ⟨_, ?_, rfl⟩
  refine Fabric.SameButJobs.trans ?_ (Fabric.sameButJobs_cancelChunks _ i b)
  refine Fabric.SameButJobs.trans ?_ (Fabric.sameButJobs_dropCurrent _ i b)
  split
  · exact (f.sameButJobs_removeJob i b).trans (Fabric.sameButJobs_promoteDeferred _ i)
  · exact f.sameButJobs_removeJob i b

/-! ## DISCARD -/

/-- The states of a surface's buffers and its two lists are as they were. -/
def Surface.SameLists (su su' : Surface) : Prop :=
  su'.states = su.states ∧ su'.present = su.present ∧ su'.closing = su.closing

theorem Surface.SameLists.trans {a b c : Surface} (h : a.SameLists b) (k : b.SameLists c) : a.SameLists c :=
  ⟨k.1.trans h.1, k.2.1.trans h.2.1, k.2.2.trans h.2.2⟩

theorem Fabric.cancelJob_sameLists (f : Fabric) (i : Fin 8) (b : Nat) (promote : Bool) :
    (f.surf i).SameLists ((f.cancelJob i b promote).surf i) := by
  cases hj : f.jobOf i b with
  | none => unfold Fabric.cancelJob; rw [hj]; exact ⟨rfl, rfl, rfl⟩
  | some j =>
    obtain ⟨g, hg, e⟩ := Fabric.cancelJob_eq (promote := promote) hj
    rw [e]
    unfold Fabric.modBuf
    rw [Fabric.surf_modSurf_same, hg.surf i]
    exact ⟨Surface.states_modBuf _ _ fun _ => rfl, rfl, rfl⟩

theorem Fabric.surf_dropRest (f : Fabric) (id : Nat) (l : Fin 8) : (f.dropRest id).surf l = f.surf l := by
  rw [f.dropRest_rest]; rfl

theorem Fabric.keeps_releaseHead (f : Fabric) (i : Fin 8) :
    f.Keeps (f.releaseHead i) ∧ (f.surf i).SameLists ((f.releaseHead i).surf i) := by
  unfold Fabric.releaseHead
  split
  · rename_i bd q qs hh hq
    split
    · constructor
      · refine (f.keeps_dropRest q.id).trans (Fabric.keeps_modSurf _ i ?_)
        rw [f.surf_dropRest]
        exact { buffers := fun hb => ⟨hb.1, hb.2.1, nofun⟩
                lane := by rw [hq]; simp only [List.length_cons]; omega }
      · rw [Fabric.surf_modSurf_same, f.surf_dropRest]; exact ⟨rfl, rfl, rfl⟩
    · exact ⟨f.keeps_modSurf i ((f.surf i).keeps_head nofun), by rw [Fabric.surf_modSurf_same]; exact ⟨rfl, rfl, rfl⟩⟩
  · exact ⟨f.keeps_modSurf i ((f.surf i).keeps_head nofun), by rw [Fabric.surf_modSurf_same]; exact ⟨rfl, rfl, rfl⟩⟩

theorem Surface.interruptMerges_sameLists (su : Surface) (p : Merge → Bool) : su.SameLists (su.interruptMerges p) := by
  unfold Surface.interruptMerges
  refine List.foldlRecOn (motive := fun s => su.SameLists s) _ _ ⟨rfl, rfl, rfl⟩ fun s hs m _ => ?_
  split
  · split
    · exact hs.trans ⟨Surface.states_modBuf _ _ fun _ => rfl, rfl, rfl⟩
    · exact hs.trans ⟨rfl, rfl, rfl⟩
  · exact hs

/-- A buffer that stands in neither list leaves use. -/
theorem Surface.keeps_leaveUse (su : Surface) (b : Nat) (g : BufRec → BufRec)
    (hb : ListsSafe su → b ∉ su.present ∧ b ∉ su.closing) : su.Keeps (su.modBuf b (fun r => (g r).leaveUse)) := by
  obtain ⟨x, hx, hs⟩ := su.states_leaveUse b (g := g)
  have hxf : x ≠ .filling ∧ x ≠ .shown := by rcases hx with rfl | rfl <;> decide
  refine { buffers := buffersSafe_of_set hs hxf.1 hxf.2 fun h => h, lists := fun h => ?_ }
  obtain ⟨hp, hc⟩ := hb h
  rw [listsSafe_iff] at h ⊢
  rw [hs, su.modBuf_present, su.modBuf_closing]
  have hne : ∀ k, k ≠ b → (su.states.set b x)[k]? = su.states[k]? := fun k hk => by
    rw [List.getElem?_set]; simp [Ne.symm hk]
  exact ⟨h.1, h.2.1, fun k hk => by rw [hne k (fun e => hp (e ▸ hk))]; exact h.2.2.1 k hk,
    fun k hk => by rw [hne k (fun e => hc (e ▸ hk))]; exact h.2.2.2 k hk⟩

theorem Fabric.keeps_discardFill (f : Fabric) (env : Env) (i : Fin 8) {b : Nat} (hb : (f.surf i).filling = some b) :
    f.Keeps (f.discardFill env i b) := by
  obtain ⟨k1, l1⟩ := f.keeps_releaseHead i
  generalize hf1 : f.releaseHead i = f1 at k1 l1
  have k2 : f1.Keeps (f1.modSurf i (fun su =>
      { su.interruptMerges (fun m => m.buf == b) with closePending := false, slot := none })) := by
    obtain ⟨hk, hs⟩ := (f1.surf i).keeps_interruptMerges (fun m => m.buf == b)
    obtain ⟨hl, hd⟩ := hs.life_deferred
    exact f1.keeps_modSurf i (hk.trans {}) hl (by
      dsimp only; rw [hd]; exact fun j hj => ⟨j, hj, rfl⟩)
  have l2 : (f.surf i).SameLists ((f1.modSurf i (fun su =>
      { su.interruptMerges (fun m => m.buf == b) with closePending := false, slot := none })).surf i) := by
    rw [Fabric.surf_modSurf_same]
    exact l1.trans ((f1.surf i).interruptMerges_sameLists _)
  generalize hf2 : f1.modSurf i (fun su =>
      { su.interruptMerges (fun m => m.buf == b) with closePending := false, slot := none }) = f2 at k2 l2
  have l3 := l2.trans (f2.cancelJob_sameLists i b true)
  unfold Fabric.discardFill
  dsimp only
  rw [hf1, hf2]
  refine Fabric.Keeps.trans ?_ (Fabric.keeps_bufferTests _ env i)
  refine ((k1.trans k2).trans (f2.keeps_cancelJob i b true)).trans (Fabric.keeps_modSurf _ i ?_)
  obtain ⟨hs, hp, hc⟩ := l3
  refine Surface.Keeps.trans (b := { (f2.cancelJob i b true).surf i with latch := none }) {}
    (Surface.keeps_leaveUse _ b _ fun h => ?_)
  rw [listsSafe_iff] at h
  have hst : Surface.states { (f2.cancelJob i b true).surf i with latch := none } = (f.surf i).states := hs
  have hfl := Surface.states_of_filling hb
  rw [hst] at h
  obtain ⟨-, -, hr, hcl⟩ := h
  refine ⟨fun hm => ?_, fun hm => ?_⟩
  · have := hr b hm
    rw [hfl] at this
    cases this
  · have := hcl b hm
    rw [hfl] at this
    cases this

end Sys2Proof.Machine

/-! # The invariants of the fabric under every change of the blocks -/

namespace Sys2Proof.Machine

set_option Elab.async false

/-- The five invariants of the fabric hold on, each by itself. -/
structure Fabric.Preserves (f g : Fabric) : Prop where
  queue : QueueSafe f.events → QueueSafe g.events := by exact fun h => h
  buffers : (∀ i, BuffersSafe (f.surf i)) → ∀ i, BuffersSafe (g.surf i) := by exact fun h => h
  lists : (∀ i, ListsSafe (f.surf i)) → ∀ i, ListsSafe (g.surf i) := by exact fun h => h
  room : RoomKept f → RoomKept g := by exact fun h => h
  jobs : JobsSafe f → JobsSafe g := by exact fun h => h

theorem Fabric.Preserves.refl (f : Fabric) : f.Preserves f := {}

theorem Fabric.Preserves.trans {f g h : Fabric} (a : f.Preserves g) (b : g.Preserves h) : f.Preserves h where
  queue := fun k => b.queue (a.queue k)
  buffers := fun k => b.buffers (a.buffers k)
  lists := fun k => b.lists (a.lists k)
  room := fun k => b.room (a.room k)
  jobs := fun k => b.jobs (a.jobs k)

theorem Fabric.preserves_foldl {α : Type} {op : Fabric → α → Fabric} (l : List α) (f : Fabric)
    (h : ∀ g : Fabric, ∀ a ∈ l, g.Preserves (op g a)) : f.Preserves (l.foldl op f) :=
  List.foldlRecOn (motive := f.Preserves) l op (.refl f) fun _ hg a ha => hg.trans (h _ a ha)

theorem Fabric.Calm.room {f g : Fabric} (h : f.Calm g) (hr : RoomKept f) : RoomKept g := by
  obtain ⟨hp, hq, hs, hl⟩ := hr
  refine ⟨?_, ?_, ?_, fun i => ?_⟩
  · have := h.passQ; omega
  · have := h.scanQ; omega
  · have := h.slots; omega
  · obtain ⟨h1, h2, h3⟩ := hl i
    have := (h.surf i).lane
    have := (h.surf i).history
    have := (h.surf i).holdWait
    omega

/-- What keeps all but the jobs preserves the invariants, where it preserves that of the jobs. -/
theorem Fabric.Calm.preserves {f g : Fabric} (h : f.Calm g) (hj : JobsSafe f → JobsSafe g) : f.Preserves g where
  queue := h.queue
  buffers := fun hb i => (h.surf i).buffers (hb i)
  lists := fun hb i => (h.surf i).lists (hb i)
  room := h.room
  jobs := hj

theorem Fabric.Keeps.preserves {f g : Fabric} (h : f.Keeps g) : f.Preserves g :=
  h.toCalm.preserves fun hj => jobsSafe_iff.mpr (h.jobs _ (jobsSafe_iff.mp hj))

/-- A surface that a command of the surface table replaces: its invariants hold on, it stays inside the capacities, and it has
jobs only where it has them already and is ATTACHED. -/
theorem Fabric.preserves_modSurf (f : Fabric) (i : Fin 8) {g : Surface → Surface}
    (hb : BuffersSafe (f.surf i) → BuffersSafe (g (f.surf i)) := by exact fun h => h)
    (hls : ListsSafe (f.surf i) → ListsSafe (g (f.surf i)) := by exact fun h => h)
    (hlane : (g (f.surf i)).lane.length ≤ max (f.surf i).lane.length 8 := by exact Nat.le_max_left _ _)
    (hhist : (g (f.surf i)).history.length ≤ max (f.surf i).history.length 4 := by exact Nat.le_max_left _ _)
    (hhold : (g (f.surf i)).holdWait ≤ max (f.surf i).holdWait 15 := by exact Nat.le_max_left _ _)
    (hlife : (f.surf i).life = .attached → (g (f.surf i)).life = .attached := by exact fun h => h)
    (hdef : ∀ j ∈ (g (f.surf i)).deferred, j ∈ (f.surf i).deferred := by exact fun _ h => h) :
    f.Preserves (f.modSurf i g) := by
  have at' : ∀ {P : Surface → Prop}, (∀ l, P (f.surf l)) → P (g (f.surf i)) → ∀ l, P ((f.modSurf i g).surf l) := by
    intro P h hi l
    by_cases e : i = l
    · subst e; rw [f.surf_modSurf_same]; exact hi
    · rw [f.surf_modSurf_other g e]; exact h l
  have life : ∀ l, (f.surf l).life = .attached → ((f.modSurf i g).surf l).life = .attached := by
    intro l hl
    by_cases e : i = l
    · subst e; rw [f.surf_modSurf_same]; exact hlife hl
    · rw [f.surf_modSurf_other g e]; exact hl
  refine { buffers := fun h => at' h (hb (h i)), lists := fun h => at' h (hls (h i)), room := fun h => ?_, jobs := fun h => ?_ }
  · obtain ⟨hp, hq, hs, hl⟩ := h
    exact ⟨hp, hq, hs, at' (P := fun su => su.lane.length ≤ 8 ∧ su.history.length ≤ 4 ∧ su.holdWait ≤ 15) hl
      (by have := hl i; omega)⟩
  · refine ⟨fun j hj => life _ (h.1 j hj), fun l j hj => ?_⟩
    have hj : j ∈ (f.surf l).deferred := by
      by_cases e : i = l
      · subst e; rw [f.surf_modSurf_same] at hj; exact hdef j hj
      · rw [f.surf_modSurf_other g e] at hj; exact hj
    exact ⟨(h.2 l j hj).1, life l (h.2 l j hj).2⟩

/-- A surface that has no buffer record and no list, as an EMPTY one and one right after ATTACH or ERASE. -/
theorem Surface.safe_of_fresh {su : Surface} (hs : ∀ st ∈ su.states, st = .free) (hp : su.present = []) (hc : su.closing = []) :
    BuffersSafe su ∧ ListsSafe su := by
  have none_in : ∀ st : BufState, st ≠ .free → su.states.count st = 0 := by
    intro st hne
    rw [List.count_eq_zero]
    exact fun hm => hne (hs st hm)
  rw [buffersSafe_iff, listsSafe_iff, none_in .filling (by decide), none_in .shown (by decide), hp, hc]
  exact ⟨⟨by omega, by omega, fun _ => rfl⟩, List.nodup_nil, List.nodup_nil, nofun, nofun⟩

theorem Surface.safe_attached (su : Surface) : BuffersSafe su.attached ∧ ListsSafe su.attached := by
  refine Surface.safe_of_fresh (fun st hst => ?_) rfl rfl
  obtain ⟨r, hr, rfl⟩ := List.mem_map.mp hst
  obtain ⟨k, -, rfl⟩ := List.mem_map.mp hr
  rfl

theorem Surface.safe_empty : BuffersSafe Surface.empty ∧ ListsSafe Surface.empty :=
  Surface.safe_of_fresh (fun _ h => by cases h) rfl rfl

/-! ## DETACH, DISCARD READY, SET_POLICY -/

/-- R32: what DETACH keeps. While it runs, the surface's own jobs are exempt from the invariant of the jobs. -/
theorem Fabric.preserves_detach (f : Fabric) (env : Env) (i : Fin 8) : f.Preserves (f.detach env i) := by
  unfold Fabric.detach
  dsimp only
  generalize hf0 : f.modSurf i (fun su => { su with life := .detaching }) = f0
  have k : f0.Keeps (((f0.dropLane i).dropScansOf (fun e => decide (e.surface = i))).modSurf i
      (fun su => { su.interruptMerges (fun _ => true) with slot := none })) := by
    refine ((f0.keeps_dropLane i).trans (Fabric.keeps_dropScansOf _ (fun e => decide (e.surface = i)))).trans ?_
    generalize (f0.dropLane i).dropScansOf (fun e => decide (e.surface = i)) = f1
    obtain ⟨hk, hs⟩ := (f1.surf i).keeps_interruptMerges (fun _ => true)
    obtain ⟨hl, hd⟩ := hs.life_deferred
    exact f1.keeps_modSurf i (hk.trans {}) hl (by dsimp only; rw [hd]; exact fun j hj => ⟨j, hj, rfl⟩)
  generalize ((f0.dropLane i).dropScansOf (fun e => decide (e.surface = i))).modSurf i
      (fun su => { su.interruptMerges (fun _ => true) with slot := none }) = f2 at k
  have kc := f2.keeps_cancelJobs i
  have kr : (f2.cancelJobs i).Keeps (((f2.cancelJobs i).modSurf i Surface.retireBuffers).bufferTests env i) :=
    (Fabric.keeps_modSurf _ i (Surface.keeps_retireBuffers _)).trans (Fabric.keeps_bufferTests _ env i)
  have all : f0.Calm (((f2.cancelJobs i).modSurf i Surface.retireBuffers).bufferTests env i) :=
    (k.toCalm.trans kc.toCalm).trans kr.toCalm
  have surf0 : ∀ l, f0.surf l = if i = l then { f.surf l with life := .detaching } else f.surf l := by
    intro l
    rw [← hf0, Fabric.surf_modSurf]
  have jobs0 : JobsSafe f → f0.JobsBut (fun l => False ∨ l = i) := by
    intro hj
    have live : ∀ l, (f.surf l).life = .attached → (f0.surf l).life = .attached ∨ (False ∨ l = i) := by
      intro l hl
      rw [surf0]
      by_cases e : i = l
      · exact .inr (.inr e.symm)
      · rw [if_neg e]; exact .inl hl
    refine ⟨fun j hq => live _ (hj.1 j (by rw [← hf0] at hq; exact hq)), fun l j hq => ?_⟩
    have hq : j ∈ (f.surf l).deferred := by rw [surf0] at hq; split at hq <;> exact hq
    exact ⟨(hj.2 l j hq).1, live l (hj.2 l j hq).2⟩
  have start : ∀ {P : Surface → Prop}, (∀ su, P su → P { su with life := .detaching }) → (∀ l, P (f.surf l)) →
      ∀ l, P (f0.surf l) := by
    intro P hP h l
    rw [surf0]
    split
    · exact hP _ (h l)
    · exact h l
  exact {
    queue := fun h => all.queue (by rw [← hf0]; exact h)
    buffers := fun h l => (all.surf l).buffers (start (fun _ h => h) h l)
    lists := fun h l => (all.surf l).lists (start (fun _ h => h) h l)
    room := fun h => all.room ⟨by rw [← hf0]; exact h.1, by rw [← hf0]; exact h.2.1, by rw [← hf0]; exact h.2.2.1,
      start (P := fun su => su.lane.length ≤ 8 ∧ su.history.length ≤ 4 ∧ su.holdWait ≤ 15) (fun _ h => h) h.2.2.2⟩
    jobs := fun h => jobsSafe_iff.mpr (kr.jobs _ (Fabric.jobsBut_cancelJobs (k.jobs _ (jobs0 h)))) }

/-- Buffers that leave use one after another: the counts of FILLING and SHOWN ones do not rise, the other buffers are as they
were, and so is all but the buffer records. -/
theorem Surface.foldl_leaveUse (l : List Nat) (su : Surface) :
    ∃ bs, l.foldl (fun s b => s.modBuf b BufRec.leaveUse) su = { su with bufs := bs } ∧
      (∀ st : BufState, st ≠ .free → st ≠ .draining → (bs.map (·.st)).count st ≤ su.states.count st) ∧
      ∀ k, k ∉ l → (bs.map (·.st))[k]? = su.states[k]? := by
  induction l generalizing su with
  | nil => exact ⟨su.bufs, rfl, fun _ _ _ => Nat.le_refl _, fun _ _ => rfl⟩
  | cons b l ih =>
    obtain ⟨bs, e, hc, hk⟩ := ih (su.modBuf b BufRec.leaveUse)
    obtain ⟨x, hx, hs⟩ := su.states_leaveUse b (g := fun r => r)
    change (su.modBuf b BufRec.leaveUse).states = su.states.set b x at hs
    refine ⟨bs, e, fun st h1 h2 => Nat.le_trans (hc st h1 h2) ?_, fun k hkl => ?_⟩
    · rw [hs]
      exact count_set_le (by rcases hx with rfl | rfl <;> first | exact Ne.symm h1 | exact Ne.symm h2)
    · rw [hk k fun hm => hkl (List.mem_cons_of_mem _ hm), hs, List.getElem?_set]
      have : b ≠ k := fun h => hkl (by simp [h])
      simp [this]

theorem Surface.keeps_discardReady (su : Surface) : su.Keeps su.discardReady := by
  obtain ⟨bs, e, hc, hk⟩ := su.foldl_leaveUse su.present
  have he : su.discardReady = { su with bufs := bs, present := [] } := by unfold Surface.discardReady; rw [e]
  rw [he]
  refine { buffers := fun h => ?_, lists := fun h => ?_ }
  · rw [buffersSafe_iff] at h ⊢
    obtain ⟨h1, h2, h3⟩ := h
    exact ⟨Nat.le_trans (hc _ nofun nofun) h1, Nat.le_trans (hc _ nofun nofun) h2,
      fun hw => Nat.le_zero.mp (h3 hw ▸ hc _ nofun nofun)⟩
  · rw [listsSafe_iff] at h ⊢
    obtain ⟨h1, h2, h3, h4⟩ := h
    refine ⟨List.nodup_nil, h2, nofun, fun b hb => ?_⟩
    have hn : b ∉ su.present := fun hm => by have := h3 b hm; rw [h4 b hb] at this; cases this
    exact (hk b hn).trans (h4 b hb)

theorem Fabric.preserves_setPolicy (f : Fabric) (i : Fin 8) (d : Descriptor) :
    f.Preserves (f.modSurf i (fun su => su.setPolicy d)) := by
  refine f.preserves_modSurf i (hb := fun h => ⟨h.1, h.2.1, fun hw => h.2.2 ?_⟩) (hhist := ?_)
  · unfold Surface.setPolicy at hw
    dsimp only at hw
    split at hw
    · cases hw
    · exact hw
  · unfold Surface.setPolicy
    dsimp only
    split
    · exact Nat.le_max_left _ _
    · exact Nat.zero_le _

end Sys2Proof.Machine

/-! # The invariants of the part under what a command applies -/

namespace Sys2Proof.Machine

set_option Elab.async false

/-! ## Counting tags -/

theorem countTags_set (tags : Vector TagEntry 32) (t : Fin 32) (e : TagEntry) (p : TagEntry → Bool) :
    countTags (tags.set t.val e t.isLt) p =
      countTags tags p - (if p (tags.get t) then 1 else 0) + if p e then 1 else 0 := by
  unfold countTags
  rw [Vector.toList_set, List.countP_set (by simp)]
  rfl

theorem reserveKept_setTag {s : State} (h : ReserveKept s) (t : Fin 32) {e : TagEntry} (he : e.isOther = false) :
    ReserveKept (s.setTag t e) := by
  unfold ReserveKept State.setTag at *
  rw [countTags_set, he]
  simp only [Bool.false_eq_true, if_false]
  omega

/-- A tag is not both FREE and held by another owner than a scanout read. -/
theorem countTags_free_add_other (tags : Vector TagEntry 32) :
    countTags tags TagEntry.isFree + countTags tags TagEntry.isOther ≤ 32 := by
  have key : ∀ l : List TagEntry, l.countP TagEntry.isFree + l.countP TagEntry.isOther ≤ l.length := by
    intro l
    induction l with
    | nil => exact Nat.le_refl 0
    | cons e l ih =>
      have : ¬ (e.isFree = true ∧ e.isOther = true) := by
        rintro ⟨h1, h2⟩
        simp [TagEntry.isFree] at h1
        simp [TagEntry.isOther, TagEntry.isIssued, h1] at h2
      rw [List.countP_cons, List.countP_cons, List.length_cons]
      by_cases h1 : e.isFree = true <;> by_cases h2 : e.isOther = true
      · exact absurd ⟨h1, h2⟩ this
      all_goals simp only [h1, h2, if_true, if_false, Bool.false_eq_true]; omega
  exact Nat.le_trans (key tags.toList) (by simp)

/-! ## What a command applies -/

/-- What every change of the part but the taking of bits and bytes keeps. Of the link it may change the last error alone. -/
structure State.Keeps (s t : State) : Prop where
  fab : s.fab.Preserves t.fab := by exact Fabric.Preserves.refl _
  reserve : ReserveKept s → ReserveKept t := by exact fun h => h
  mask : MaskSafe s → MaskSafe t := by exact fun h => h
  link : ∃ e, t.link = { s.link with lastError := e } := by exact ⟨_, rfl⟩

theorem State.Keeps.refl (s : State) : s.Keeps s := {}

theorem State.Keeps.trans {s t u : State} (a : s.Keeps t) (b : t.Keeps u) : s.Keeps u where
  fab := a.fab.trans b.fab
  reserve := fun h => b.reserve (a.reserve h)
  mask := fun h => b.mask (a.mask h)
  link := by
    obtain ⟨e, he⟩ := a.link
    obtain ⟨e', he'⟩ := b.link
    exact ⟨e', by rw [he', he]⟩

theorem State.keeps_foldl {α : Type} {op : State → α → State} (l : List α) (s : State)
    (h : ∀ t : State, ∀ a ∈ l, t.Keeps (op t a)) : s.Keeps (l.foldl op s) :=
  List.foldlRecOn (motive := s.Keeps) l op (.refl s) fun _ hg a ha => hg.trans (h _ a ha)

theorem State.keeps_onFabric (s : State) {g : Env → Fabric → Fabric} (h : s.fab.Preserves (g s.env s.fab)) :
    s.Keeps (s.onFabric g) where
  fab := h

theorem State.keeps_finish (s : State) : s.Keeps s.finish :=
  s.keeps_onFabric (s.fab.keeps_finish s.env).preserves

theorem State.keeps_modSurf (s : State) (i : Fin 8) {g : Surface → Surface} (h : s.fab.Preserves (s.fab.modSurf i g)) :
    s.Keeps (s.modSurf i g) where
  fab := h

/-! ## Tags -/

theorem State.keeps_endReset (s : State) : s.Keeps s.endReset := by
  unfold State.endReset
  split
  · exact { fab := (s.fab.keeps_log s.env .resetDone none none none 0 0).preserves }
  · exact .refl s

/-- A completion, with a tag entry that is not ISSUED. -/
theorem State.keeps_completed (s : State) {f : Fabric} (hf : s.fab.Preserves f) (n : Nat) (t : Fin 32) {e : TagEntry}
    (he : e.st ≠ .issued) : s.Keeps (State.setTag { s with fab := f, freeCount := n } t e) where
  fab := hf
  reserve := fun h => reserveKept_setTag (s := { s with fab := f, freeCount := n }) h t
    (by simp [TagEntry.isOther, TagEntry.isIssued, he])

theorem State.keeps_takeResponse (s : State) (t : Fin 32) (code : DownCode) (data : List Byte) :
    s.Keeps (s.takeResponse t code data) := by
  unfold State.takeResponse
  refine State.Keeps.trans ?_ (State.keeps_endReset _)
  exact s.keeps_completed (s.fab.keeps_complete _ _ _ _ _).preserves _ t (by decide)

theorem State.keeps_respond (s : State) (t : Fin 32) (code : DownCode) (data : List Byte) :
    s.Keeps (s.respond t code data) := by
  unfold State.respond
  split
  · exact .refl s
  · exact (s.keeps_takeResponse t code data).trans (State.keeps_finish _)
  · refine State.Keeps.trans ?_ (State.keeps_finish _)
    exact s.keeps_completed (s.fab.keeps_logTag s.env .lateResponse (s.tag t) t 0).preserves s.freeCount t (by decide)

theorem State.keeps_expireTag (s : State) (t : Fin 32) : s.Keeps (s.expireTag t) := by
  unfold State.expireTag
  refine State.Keeps.trans ?_ (State.keeps_endReset _)
  exact s.keeps_completed (s.fab.keeps_complete _ _ _ _ _).preserves s.freeCount t nofun

theorem State.keeps_expireDue (s : State) : s.Keeps s.expireDue := by
  refine State.keeps_foldl allTags s fun u t _ => ?_
  split
  · exact (u.keeps_expireTag t).trans (State.keeps_finish _)
  · exact .refl u

/-- R157: only the scanout claim is granted while no more than four tags are FREE. -/
theorem State.bestClaim_reserve {s : State} {c : Claim} (h : s.bestClaim = some c) : c = .scanout ∨ 4 < s.freeTags := by
  unfold State.bestClaim at h
  dsimp only at h
  split at h
  · cases h
  · split at h
    · exact .inl (Option.some.inj h).symm
    · split at h
      · cases h
      · exact .inr (by omega)

theorem State.accessOf_scanout_kind {s : State} {a : Access} (h : s.accessOf .scanout = some a) : a.kind = .scanoutRead := by
  simp only [State.accessOf, Option.map_eq_some_iff] at h
  obtain ⟨_, _, rfl⟩ := h
  rfl

theorem State.keeps_grantTo (s : State) (t : Fin 32) {c : Claim} (hc : c = .scanout ∨ 4 < s.freeTags) :
    s.Keeps (s.grantTo t c) := by
  unfold State.grantTo
  split
  · exact .refl s
  · rename_i a ha
    refine { fab := (s.fab.keeps_learn c).preserves, reserve := fun h => ?_ }
    rcases hc with rfl | hc
    · refine reserveKept_setTag h t ?_
      simp [TagEntry.isOther, State.accessOf_scanout_kind ha]
    · have := countTags_free_add_other s.tags
      unfold State.freeTags at hc
      simp only [ReserveKept, State.issueAccess, State.setTag]
      rw [countTags_set]
      split <;> split <;> omega

theorem State.keeps_arbitrate (s : State) : s.Keeps s.arbitrate := by
  unfold State.arbitrate
  split
  · exact s.keeps_grantTo _ (State.bestClaim_reserve ‹_›)
  · exact .refl s

/-! ## Boundaries -/

theorem Fabric.preserves_latches (f : Fabric) (order : List (Fin 8)) : f.Preserves (f.latches order) :=
  Fabric.preserves_foldl order f fun g i _ => g.preserves_modSurf i

theorem Fabric.keeps_flips (f : Fabric) (env : Env) (n : Word) (order : List (Fin 8)) : f.Keeps (f.flips env n order) :=
  Fabric.keeps_foldl order f fun g i _ => (g.keeps_boundaryRule env i n).trans (Fabric.keeps_settleSurface _ env i)

theorem State.keeps_offerBetween (s : State) (rs : List UpRequest) : s.Keeps (s.offerBetween rs) :=
  State.keeps_foldl rs s fun u r _ =>
    (u.keeps_onFabric (g := fun _ f => f.offer r) (u.fab.keeps_offer r).preserves).trans (State.keeps_finish _)

theorem State.keeps_latches (s : State) (order : List (Fin 8)) : s.Keeps (s.onFabric (fun _ f => f.latches order)) :=
  s.keeps_onFabric (s.fab.preserves_latches order)

theorem State.keeps_flips (s : State) (n : Word) (order : List (Fin 8)) :
    s.Keeps (s.onFabric (fun env f => f.flips env n order)) :=
  s.keeps_onFabric (s.fab.keeps_flips s.env n order).preserves

theorem State.keeps_deliver (s : State) (n : Word) (order : List (Fin 8)) (between : Option Between) :
    s.Keeps (s.deliver n order between) := by
  unfold State.deliver
  split
  · exact (s.keeps_flips n order).trans (State.keeps_latches _ order)
  · split
    · exact ((s.keeps_latches order).trans (State.keeps_offerBetween _ _)).trans (State.keeps_flips _ n order)
    · exact ((s.keeps_flips n order).trans (State.keeps_offerBetween _ _)).trans (State.keeps_latches _ order)

theorem State.keeps_boundary (s : State) (p : Fin 4) (between : Option Between) : s.Keeps (s.boundary p between) := by
  unfold State.boundary
  dsimp only
  split
  · refine State.Keeps.trans ?_ (State.keeps_finish _)
    exact State.Keeps.trans {} (State.keeps_deliver _ _ _ _)
  · split
    · exact .refl s
    · exact s.keeps_offerBetween _

/-! ## Soft reset -/

theorem Fabric.keeps_dropPass (f : Fabric) : f.Keeps f.dropPass := by
  unfold Fabric.dropPass
  refine (Fabric.keeps_foldl f.passQ f fun g e _ => g.keeps_dropRest e.id).trans (Fabric.keeps_passQ _ ?_)
  exact Nat.zero_le _

theorem Fabric.keeps_dropAll (f : Fabric) : f.Keeps f.dropAll :=
  (f.keeps_dropPass.trans (Fabric.keeps_dropScansOf _ _)).trans
    (Fabric.keeps_foldl allSurfaces _ fun g i _ => g.keeps_dropLane i)

theorem State.keeps_softReset (s : State) : s.Keeps s.softReset := by
  unfold State.softReset
  dsimp only
  refine State.Keeps.trans ?_ (State.keeps_finish _)
  refine State.Keeps.trans ?_ (State.keeps_endReset _)
  refine State.Keeps.trans (t := { s with fab := { s.fab with events := [] }, device := .resetting
                                          freeCount := s.freeCount + 1 }) ?_ (State.keeps_onFabric _ ?_)
  · exact { fab := { queue := fun _ => ⟨Nat.zero_le _, Nat.zero_le _, nofun⟩ } }
  · exact (Fabric.keeps_dropAll _).preserves.trans (Fabric.preserves_foldl _ _ fun g i _ => g.preserves_detach _ i)

/-! ## The commands of the catalogue -/

theorem State.keeps_named (s : State) (params : List Byte) {g : Fin 8 → Applied} (h : ∀ i, s.Keeps (g i).1) :
    s.Keeps (s.named params g).1 := by
  unfold State.named
  split
  · exact h _
  · exact .refl s

theorem State.keeps_onAttached (s : State) (params : List Byte) {g : Fin 8 → Applied} (h : ∀ i, s.Keeps (g i).1) :
    s.Keeps (s.onAttached params g).1 := by
  refine s.keeps_named params fun i => ?_
  split
  · exact h i
  · exact .refl s

/-- A command that does something when a test passes and is refused otherwise. -/
theorem State.keeps_ite (s : State) {p : Prop} [Decidable p] {a : Applied} {st : Status} (h : p → s.Keeps a.1) :
    s.Keeps (if p then a else s.failed st).1 := by
  split
  · exact h ‹_›
  · exact .refl s

theorem keeps_applyDefineSurface (params : List Byte) (s : State) : s.Keeps (applyDefineSurface params s).1 := by
  refine s.keeps_named params fun i => ?_
  split
  · rename_i hl
    exact s.keeps_modSurf i (s.fab.preserves_modSurf i (hlife := fun h => by rw [State.surf, h] at hl; cases hl))
  · rename_i hl
    exact s.keeps_modSurf i (s.fab.preserves_modSurf i (hlife := fun h => by rw [State.surf, h] at hl; cases hl))
  · exact .refl s
  · exact .refl s

theorem Fabric.preserves_attached (f : Fabric) (i : Fin 8) : f.Preserves (f.modSurf i Surface.attached) :=
  f.preserves_modSurf i (hb := fun _ => (Surface.safe_attached _).1) (hls := fun _ => (Surface.safe_attached _).2)
    (hlane := Nat.zero_le _) (hhist := Nat.zero_le _) (hhold := Nat.zero_le _) (hlife := fun _ => rfl) (hdef := nofun)

theorem Fabric.preserves_empty (f : Fabric) (i : Fin 8) (hl : (f.surf i).life ≠ .attached) :
    f.Preserves (f.modSurf i (fun _ => Surface.empty)) :=
  f.preserves_modSurf i (hb := fun _ => Surface.safe_empty.1) (hls := fun _ => Surface.safe_empty.2)
    (hlane := Nat.zero_le _) (hhist := Nat.zero_le _) (hhold := Nat.zero_le _) (hlife := fun h => absurd h hl)
    (hdef := nofun)

theorem keeps_applyAttach (params : List Byte) (s : State) : s.Keeps (applyAttach params s).1 := by
  refine s.keeps_named params fun i => s.keeps_ite fun _ => ?_
  split
  · exact .refl s
  · change s.Keeps (s.modSurf i Surface.attached).finish
    exact (s.keeps_modSurf i (s.fab.preserves_attached i)).trans (State.keeps_finish _)

theorem keeps_applyDetach (params : List Byte) (s : State) : s.Keeps (applyDetach params s).1 := by
  refine s.keeps_named params fun i => ?_
  split
  · change s.Keeps (s.onFabric (fun env f => f.detach env i)).finish
    refine State.Keeps.trans ?_ (State.keeps_finish _)
    exact s.keeps_onFabric (g := fun env f => f.detach env i) (s.fab.preserves_detach s.env i)
  all_goals exact .refl s

theorem keeps_applyErase (params : List Byte) (s : State) : s.Keeps (applyErase params s).1 := by
  refine s.keeps_named params fun i => ?_
  split
  · rename_i hl
    exact s.keeps_modSurf i (s.fab.preserves_empty i fun h => by rw [State.surf, h] at hl; cases hl)
  all_goals exact .refl s

theorem keeps_applySetWindow (params : List Byte) (s : State) : s.Keeps (applySetWindow params s).1 := by
  refine s.keeps_onAttached params fun i => ?_
  dsimp only
  split
  · exact .refl s
  · exact s.keeps_ite fun _ => s.keeps_modSurf i (s.fab.preserves_modSurf i)

theorem keeps_applySetPolicy (params : List Byte) (s : State) : s.Keeps (applySetPolicy params s).1 :=
  s.keeps_onAttached params fun i => s.keeps_ite fun _ =>
    (s.keeps_modSurf i (s.fab.preserves_setPolicy i _)).trans (State.keeps_finish _)

theorem keeps_applyCloseCommand (params : List Byte) (s : State) : s.Keeps (applyCloseCommand params s).1 :=
  s.keeps_onAttached params fun i => s.keeps_ite fun _ =>
    (s.keeps_onFabric (s.fab.keeps_closeTrigger s.env i).preserves).trans (State.keeps_finish _)

theorem Surface.discardReady_rest (su : Surface) : ∃ bs, su.discardReady = { su with bufs := bs, present := [] } := by
  obtain ⟨bs, e, -⟩ := su.foldl_leaveUse su.present
  exact ⟨bs, by unfold Surface.discardReady; rw [e]⟩

theorem Fabric.keeps_modDiscardReady (f : Fabric) (i : Fin 8) : f.Keeps (f.modSurf i Surface.discardReady) := by
  obtain ⟨bs, e⟩ := (f.surf i).discardReady_rest
  exact f.keeps_modSurf i (Surface.keeps_discardReady _) (by rw [e]) (by rw [e]; exact fun j hj => ⟨j, hj, rfl⟩)

theorem keeps_applyDiscard (params : List Byte) (s : State) : s.Keeps (applyDiscard params s).1 := by
  refine s.keeps_onAttached params fun i => ?_
  split
  · split
    · rename_i b hb
      refine State.Keeps.trans ?_ (State.keeps_finish _)
      exact s.keeps_onFabric (g := fun env f => f.discardFill env i b) (s.fab.keeps_discardFill s.env i hb).preserves
    · exact .refl s
  · refine s.keeps_ite fun _ => ?_
    split
    · exact .refl s
    · refine State.Keeps.trans ?_ (State.keeps_finish _)
      exact s.keeps_modSurf i (s.fab.keeps_modDiscardReady i).preserves

theorem keeps_applyBindPipe (params : List Byte) (s : State) : s.Keeps (applyBindPipe params s).1 := by
  unfold applyBindPipe
  split
  · exact s.keeps_ite fun _ => State.Keeps.trans {} (State.keeps_finish _)
  · exact .refl s

theorem keeps_applyLoadExpand (params : List Byte) (s : State) : s.Keeps (applyLoadExpand params s).1 := by
  unfold applyLoadExpand
  extract_lets
  split
  · exact .refl s
  · split
    · exact .refl s
    · exact {}

theorem keeps_applyLoadPalette (params : List Byte) (s : State) : s.Keeps (applyLoadPalette params s).1 := by
  unfold applyLoadPalette
  extract_lets
  split
  · exact .refl s
  · split
    · exact .refl s
    · exact {}

theorem queueSafe_drop {q : List EventRecord} (n : Nat) (hn : 1 ≤ n) (h : QueueSafe q) : QueueSafe (q.drop n) := by
  obtain ⟨h32, h1, -⟩ := h
  have hl := List.length_drop (i := n) (l := q)
  exact ⟨by omega, Nat.le_trans (List.drop_sublist n q).countP_le h1, fun h => by omega⟩

theorem keeps_applyReadEvents (params : List Byte) (s : State) : s.Keeps (applyReadEvents params s).1 :=
  s.keeps_ite fun hn => { fab := { queue := queueSafe_drop _ hn.1 } }

theorem keeps_applySetTimeout (params : List Byte) (s : State) : s.Keeps (applySetTimeout params s).1 := by
  unfold applySetTimeout State.okWith
  dsimp only
  refine State.Keeps.trans ?_ (State.keeps_expireDue _)
  exact {}

theorem Command.keeps_apply (c : Command) (params : List Byte) (s : State) : s.Keeps (c.apply params s).1 := by
  have attached : ∀ {p : Fin 8 → Prop} [∀ i, Decidable (p i)] {g : Fin 8 → Surface → Surface},
      (∀ i, s.fab.Preserves (s.fab.modSurf i (g i))) →
      s.Keeps (s.onAttached params fun i => if p i then (s.modSurf i (g i)).done else s.failed .badValue).1 :=
    fun h => s.keeps_onAttached params fun i => s.keeps_ite fun _ => s.keeps_modSurf i (h i)
  cases c with
  | ident => exact .refl s
  | status => exact {}
  | defineSurface => exact keeps_applyDefineSurface params s
  | readSurface => exact s.keeps_named params fun _ => .refl s
  | attach => exact keeps_applyAttach params s
  | detach => exact keeps_applyDetach params s
  | erase => exact keeps_applyErase params s
  | setOrient => exact attached fun i => s.fab.preserves_modSurf i
  | setWindow => exact keeps_applySetWindow params s
  | setScroll => exact attached fun i => s.fab.preserves_modSurf i
  | setVisible => exact attached fun i => s.fab.preserves_modSurf i
  | setPolicy => exact keeps_applySetPolicy params s
  | close => exact keeps_applyCloseCommand params s
  | discard => exact keeps_applyDiscard params s
  | bindPipe => exact keeps_applyBindPipe params s
  | loadExpand => exact keeps_applyLoadExpand params s
  | loadPalette => exact keeps_applyLoadPalette params s
  | setTimeout => exact keeps_applySetTimeout params s
  | readEvents => exact keeps_applyReadEvents params s
  | setAttention => exact s.keeps_ite fun h => { mask := fun _ => h }
  | reset => exact s.keeps_softReset

theorem keeps_runCommand (c : Command) (params : List Byte) (s : State) : s.Keeps (runCommand c params s).1 := by
  unfold runCommand
  split
  · exact .refl s
  · split
    · exact .refl s
    · exact c.keeps_apply params s

theorem keeps_runMessage (code : Byte) (params : List Byte) (check : Byte) (s : State) :
    s.Keeps (runMessage code params check s).1 := by
  unfold runMessage
  split
  · exact .refl s
  · split
    · exact .refl s
    · exact keeps_runCommand _ params s

end Sys2Proof.Machine

/-! # The invariants of the part under every step -/

namespace Sys2Proof.Machine

set_option Elab.async false

/-! ## The link while bits are taken (R169, R171 to R175) -/

/-- What an assembly may hold: an unfinished message of at most 80 parameter bytes. -/
def Unfinished (asm : List Byte) : Prop :=
  asm.length < 2 ∨ (byteAt asm 1).toNat ≤ 80 ∧ asm.length < (byteAt asm 1).toNat + 3

/-- The link's invariant while bits of a byte may be held and a response is partly clocked out. -/
structure LinkRuns (l : Link) : Prop where
  asm : Unfinished l.asm
  empty : l.state = .idle ∨ l.state = .responding → l.asm = []
  noResponse : l.state ≠ .responding → l.response = [] ∧ l.respPos = 0
  left : l.state = .responding → l.respPos < 8 * l.response.length
  bits : l.state = .paused ∨ l.state = .responding → l.bitCount = 0
  paused : l.state = .paused → l.cselHigh = true
  low : l.state = .receiving ∨ l.state = .responding → l.cselHigh = false
  wait : l.waitHigh = true → l.state = .idle ∧ l.cselHigh = false
  footing : l.waitHigh = true → l.bitCount = 0

/-- Between commands: no bit of a byte held, and whole bytes of a response presented. -/
theorem linkSafe_iff {l : Link} :
    LinkSafe l ↔ LinkRuns l ∧ l.bitCount = 0 ∧ (l.state = .responding → l.respPos % 8 = 0) := by
  constructor
  · rintro ⟨h1, h2, h3, h4, h5, h6, h7, h8⟩
    exact ⟨⟨h1, h2, h3, fun h => (h4 h).2, fun _ => h5, h6, h7, h8, fun _ => h5⟩, h5, fun h => (h4 h).1⟩
  · rintro ⟨⟨h1, h2, h3, h4, -, h6, h7, h8, -⟩, h5, h9⟩
    exact ⟨h1, h2, h3, fun h => ⟨h9 h, h4 h⟩, h5, h6, h7, h8⟩

/-- What a change of the part preserves, the invariants of the blocks and those of the link. -/
structure State.Preserves (L : Link → Prop) (s t : State) : Prop where
  fab : s.fab.Preserves t.fab := by exact Fabric.Preserves.refl _
  reserve : ReserveKept s → ReserveKept t := by exact fun h => h
  mask : MaskSafe s → MaskSafe t := by exact fun h => h
  link : L s.link → L t.link := by exact fun h => h

theorem State.Preserves.refl {L : Link → Prop} (s : State) : s.Preserves L s := {}

theorem State.Preserves.trans {L : Link → Prop} {s t u : State} (a : s.Preserves L t) (b : t.Preserves L u) :
    s.Preserves L u where
  fab := a.fab.trans b.fab
  reserve := fun h => b.reserve (a.reserve h)
  mask := fun h => b.mask (a.mask h)
  link := fun h => b.link (a.link h)

theorem State.Keeps.preserves {s t : State} (h : s.Keeps t) : s.Preserves LinkSafe t where
  fab := h.fab
  reserve := h.reserve
  mask := h.mask
  link := by obtain ⟨e, he⟩ := h.link; rw [he]; exact fun h => h

/-- A change of the link alone. -/
theorem State.preserves_onLink {L : Link → Prop} (s : State) {g : Link → Link} (h : L s.link → L (g s.link)) :
    s.Preserves L (s.onLink g) where
  link := h

/-! ## An answer and a byte taken -/

theorem linkSafe_idle (l : Link) (c : Bool) (e : LinkError) (h : l.waitHigh = false) :
    LinkSafe { l.idle c with lastError := e } :=
  ⟨.inl Nat.zero_lt_two, fun _ => rfl, fun _ => ⟨rfl, rfl⟩, nofun, rfl, nofun, fun h => h.elim nofun nofun,
    fun hw => by cases h ▸ (show l.waitHigh = true from hw)⟩

theorem Reply.frame_ne_nil (r : Reply) : r.frame ≠ [] := nofun

/-- An answer to a command that left the link but for its error: the link holds the whole response. -/
theorem linkSafe_answer {l : Link} {a : Applied} (h : ∃ e, a.1.link = { l with lastError := e }) (hw : l.waitHigh = false) :
    LinkSafe (State.answer a).link := by
  obtain ⟨e, he⟩ := h
  have hn := List.length_pos_of_ne_nil a.2.frame_ne_nil
  have hw' : (State.answer a).link.waitHigh = false := by
    change a.1.link.waitHigh = false
    rw [he]; exact hw
  refine ⟨.inl Nat.zero_lt_two, fun _ => rfl, fun h => absurd rfl h, fun _ => ⟨rfl, ?_⟩, rfl, nofun, fun _ => rfl,
    fun h => by rw [hw'] at h; cases h⟩
  change 0 < 8 * a.2.frame.length
  omega

theorem State.preserves_answer {s : State} {a : Applied} (h : s.Keeps a.1) (hw : LinkSafe s.link → s.link.waitHigh = false) :
    s.Preserves LinkSafe (State.answer a) where
  fab := h.fab
  reserve := h.reserve
  mask := h.mask
  link := fun hl => linkSafe_answer h.link (hw hl)

theorem linkSafe_not_waiting {l : Link} (h : LinkSafe l) (hs : l.state ≠ .idle) : l.waitHigh = false := by
  obtain ⟨-, -, -, -, -, -, -, hw⟩ := h
  cases he : l.waitHigh
  · rfl
  · exact absurd (hw he).1 hs

/-- A link that takes a message waits for nothing. -/
theorem linkSafe_takes {l : Link} {body : List Byte} (ht : l.takes body = true) (h : LinkSafe l) : l.waitHigh = false := by
  cases hs : l.state with
  | idle => simpa [Link.takes, hs] using ht
  | receiving => exact linkSafe_not_waiting h (by rw [hs]; decide)
  | paused => exact linkSafe_not_waiting h (by rw [hs]; decide)
  | responding => exact linkSafe_not_waiting h (by rw [hs]; decide)

theorem State.preserves_message (s : State) (code : Byte) (params : List Byte) {run : State → Applied}
    (hr : s.Keeps (run s).1) : s.Preserves LinkSafe (s.message code params run) := by
  unfold State.message
  split
  · rename_i ht
    exact State.preserves_answer hr (linkSafe_takes ht.1)
  · exact .refl s

theorem State.preserves_overlong (s : State) (code length : Byte) : s.Preserves LinkSafe (s.overlong code length) := by
  unfold State.overlong
  split
  · rename_i ht
    exact State.preserves_answer (State.Keeps.refl s) (linkSafe_takes ht.1)
  · exact .refl s

theorem linkSafe_store {s : State} {asm : List Byte} (ha : Unfinished asm) (hl : LinkSafe s.link)
    (hs : s.link.state ≠ .responding) (hw : s.link.waitHigh = false) : LinkSafe (s.store asm).link := by
  obtain ⟨-, -, hr, -, -, -, -, -⟩ := hl
  exact ⟨ha, fun h => h.elim nofun nofun, fun _ => hr hs, nofun, rfl, nofun, fun _ => rfl,
    fun h => by rw [show (s.store asm).link.waitHigh = s.link.waitHigh from rfl, hw] at h; cases h⟩

theorem byteAt_append_of_lt {l : List Byte} {b : Byte} {k : Nat} (h : k < l.length) : byteAt (l ++ [b]) k = byteAt l k := by
  simp [byteAt, List.getElem?_append_left h]

/-- R171: a byte that neither completes the message nor is a length above 80 leaves it unfinished. -/
theorem unfinished_append {asm : List Byte} (h : Unfinished asm) (b : Byte)
    (h80 : ¬ ((asm ++ [b]).length = 2 ∧ 80 < (byteAt (asm ++ [b]) 1).toNat))
    (hn : (asm ++ [b]).length ≠ (byteAt (asm ++ [b]) 1).toNat + 3) : Unfinished (asm ++ [b]) := by
  unfold Unfinished at *
  simp only [List.length_append, List.length_singleton] at *
  by_cases h2 : 2 ≤ asm.length
  · rw [byteAt_append_of_lt (by omega)] at *
    omega
  · omega

theorem State.preserves_takeByte (s : State) (b : Byte) : s.Preserves LinkSafe (s.takeByte b) := by
  unfold State.takeByte
  split
  · rename_i hs
    split
    · exact .refl s
    · rename_i hw
      exact { link := fun hl => linkSafe_store (.inl (by simp)) hl (by rw [hs]; decide) (by simpa using hw) }
  · rename_i hs
    have hw : LinkSafe s.link → s.link.waitHigh = false := fun hl => linkSafe_not_waiting hl (by rw [hs]; decide)
    unfold State.receive
    dsimp only
    split
    · exact State.preserves_answer (State.Keeps.refl s) hw
    · split
      · exact State.preserves_answer (keeps_runMessage _ _ _ s) hw
      · exact { link := fun hl => linkSafe_store (unfinished_append hl.1 b ‹_› ‹_›) hl (by rw [hs]; decide) (hw hl) }
  · exact .refl s
  · exact .refl s

/-! ## Bits -/

theorem State.Preserves.runs {s t : State} (h : s.Preserves LinkSafe t) (hl : LinkRuns s.link → LinkSafe s.link) :
    s.Preserves LinkRuns t where
  fab := h.fab
  reserve := h.reserve
  mask := h.mask
  link := fun hr => (linkSafe_iff.mp (h.link (hl hr))).1

theorem Link.samples_iff {l : Link} : l.samples = true ↔ l.state = .idle ∧ l.waitHigh = false ∨ l.state = .receiving := by
  unfold Link.samples
  cases l.state <;> simp

theorem linkRuns_of_samples {l : Link} (hs : l.samples = true) (h : LinkRuns l) (n : BitVec 3) (sh : Byte) :
    LinkRuns { l with bitCount := n, shift := sh, cselHigh := false } := by
  rw [Link.samples_iff] at hs
  have hp : l.state ≠ .paused ∧ l.state ≠ .responding ∧ l.waitHigh = false := by
    rcases hs with ⟨h1, h2⟩ | h1
    · rw [h1]; exact ⟨nofun, nofun, h2⟩
    · rw [h1]
      refine ⟨nofun, nofun, ?_⟩
      cases hw : l.waitHigh
      · rfl
      · have := (h.wait hw).1; rw [h1] at this; cases this
  obtain ⟨h1, h2, h3⟩ := hp
  exact ⟨h.asm, h.empty, h.noResponse, h.left, fun e => (e.elim h1 h2).elim, fun e => (h1 e).elim, fun _ => rfl,
    fun hw => absurd hw (Bool.eq_false_iff.mp h3), fun hw => absurd hw (Bool.eq_false_iff.mp h3)⟩

theorem State.preserves_sampleBit (s : State) (bit : Bool) : s.Preserves LinkRuns (s.sampleBit bit) := by
  unfold State.sampleBit
  split
  · rename_i hs
    split
    · refine State.Preserves.trans (t := s.onLink (fun l => { l with bitCount := 0, shift := 0, cselHigh := false }))
        (s.preserves_onLink fun h => linkRuns_of_samples hs h _ _) ?_
      refine (State.preserves_takeByte _ _).runs fun h => linkSafe_iff.mpr ⟨h, rfl, fun hr => ?_⟩
      exact absurd hr (Link.not_responding_of_samples hs)
    · exact s.preserves_onLink fun h => linkRuns_of_samples hs h _ _
  · exact .refl s

/-- The response leaves and the link goes IDLE. -/
theorem linkSafe_idle_of_not_idle {l : Link} (h : LinkRuns l) (hs : l.state ≠ .idle) (c : Bool) (e : LinkError) :
    LinkSafe { l.idle c with lastError := e } :=
  linkSafe_idle _ c e (Bool.eq_false_iff.mpr fun hw => hs (h.wait hw).1)

theorem State.preserves_presentBit (s : State) : s.Preserves LinkRuns s.presentBit := by
  unfold State.presentBit
  split
  · rename_i hs
    split
    · rename_i hlt
      exact s.preserves_onLink fun h => ⟨h.asm, h.empty, fun hn => absurd hs hn, fun _ => hlt, h.bits, h.paused, h.low, h.wait,
        h.footing⟩
    · exact { link := fun h => (linkSafe_iff.mp (linkSafe_idle_of_not_idle h (by rw [hs]; decide) false s.link.lastError)).1 }
  · exact .refl s

theorem State.preserves_clock (s : State) (bit : Bool) : s.Preserves LinkRuns (s.clock bit) := by
  unfold State.clock
  split
  · exact s.preserves_presentBit
  · exact s.preserves_sampleBit bit

theorem State.preserves_clocks (bits : List Bool) (s : State) : s.Preserves LinkRuns (bits.foldl State.clock s) := by
  induction bits generalizing s with
  | nil => exact .refl s
  | cons b bits ih => exact (s.preserves_clock b).trans (ih _)

theorem State.preserves_presentBits (n : Nat) (s : State) : s.Preserves LinkRuns (State.presentBits n s) := by
  induction n generalizing s with
  | zero => exact .refl s
  | succ n ih => exact s.preserves_presentBit.trans (ih _)

/-! ## The release of CSEL -/

/-- A release between bytes in IDLE or in RECEIVING leaves the assembly and, in RECEIVING, pauses the message. -/
theorem State.release_link (s : State) (h : LinkRuns s.link) : LinkSafe s.release.link := by
  unfold State.release
  split
  · rename_i hs
    split
    · rename_i hb
      refine ⟨h.asm, h.empty, h.noResponse, fun hr => ?_, hb, fun _ => rfl, fun hr => ?_, nofun⟩
      · cases hs.symm.trans hr
      · exact hr.elim (fun e => by cases hs.symm.trans e) fun e => by cases hs.symm.trans e
    · rename_i hb
      exact linkSafe_idle _ true .brk (Bool.eq_false_iff.mpr fun hw => hb (h.footing hw))
  · rename_i hs
    have hn : s.link.state ≠ .idle := by rw [hs]; decide
    split
    · rename_i hb
      refine ⟨h.asm, fun hr => hr.elim nofun nofun, fun _ => h.noResponse (by rw [hs]; decide), nofun, hb, fun _ => rfl,
        fun hr => hr.elim nofun nofun, fun hw => absurd (h.wait hw).1 hn⟩
    · exact linkSafe_idle_of_not_idle h hn true .brk
  · rename_i hs
    exact linkSafe_iff.mpr ⟨h, h.bits (.inl hs), fun hr => by cases hs.symm.trans hr⟩
  · rename_i hs
    exact linkSafe_idle_of_not_idle h (by rw [hs]; decide) true .cut

theorem State.release_rest (s : State) : s.release.fab = s.fab ∧ s.release.tags = s.tags ∧ s.release.mask = s.mask := by
  unfold State.release
  split
  · split <;> exact ⟨rfl, rfl, rfl⟩
  · split <;> exact ⟨rfl, rfl, rfl⟩
  · exact ⟨rfl, rfl, rfl⟩
  · exact ⟨rfl, rfl, rfl⟩

/-- Whatever bits came before it, a release leaves a safe link. -/
theorem State.Preserves.release {s t : State} (h : s.Preserves LinkRuns t) : s.Preserves LinkSafe t.release := by
  obtain ⟨hf, ht, hm⟩ := t.release_rest
  refine { fab := hf ▸ h.fab, reserve := fun hr => ?_, mask := fun hk => ?_, link := fun hl => ?_ }
  · unfold ReserveKept; rw [ht]; exact h.reserve hr
  · unfold MaskSafe; rw [hm]; exact h.mask hk
  · exact t.release_link (h.link (linkSafe_iff.mp hl).1)

/-! ## The rows of the link -/

theorem State.preserves_pause (s : State) : s.Preserves LinkSafe s.pause := by
  unfold State.pause
  split
  · exact (State.Preserves.refl s).release
  · exact .refl s

theorem State.preserves_releaseIdle (s : State) : s.Preserves LinkSafe s.releaseIdle := by
  unfold State.releaseIdle
  split
  · exact (State.Preserves.refl s).release
  · exact .refl s

theorem State.preserves_breakAt (s : State) (bits : List Bool) : s.Preserves LinkSafe (s.breakAt bits) := by
  unfold State.breakAt
  split
  · exact (s.preserves_clocks bits).release
  · exact .refl s

theorem State.preserves_cutAt (s : State) (bits : Nat) : s.Preserves LinkSafe (s.cutAt bits) := by
  unfold State.cutAt
  split
  · exact (s.preserves_presentBits bits).release
  · exact .refl s

theorem State.preserves_resume (s : State) : s.Preserves LinkSafe s.resume := by
  unfold State.resume
  split
  · rename_i hs
    have hn : s.link.state ≠ .idle := by rw [hs]; decide
    split
    · refine s.preserves_onLink fun h => ?_
      obtain ⟨h, hb, -⟩ := linkSafe_iff.mp h
      exact ⟨h.asm, fun hr => hr.elim nofun nofun, fun _ => h.noResponse (by rw [hs]; decide), nofun, hb, nofun, fun _ => rfl,
        fun hw => absurd (h.wait hw).1 hn⟩
    · exact s.preserves_onLink fun h => linkSafe_idle_of_not_idle (linkSafe_iff.mp h).1 hn false .holdLimit
  · rename_i hs
    refine s.preserves_onLink fun h => ?_
    obtain ⟨h, hb, -⟩ := linkSafe_iff.mp h
    exact ⟨h.asm, h.empty, h.noResponse, fun hr => (by cases hs.symm.trans hr), hb, fun hr => (by cases hs.symm.trans hr),
      fun _ => rfl, fun hw => ⟨(h.wait hw).1, rfl⟩⟩
  · exact .refl s
  · exact .refl s

theorem State.preserves_linkLimit (s : State) : s.Preserves LinkSafe s.linkLimit := by
  unfold State.linkLimit
  split
  · rename_i hs
    exact s.preserves_onLink fun h =>
      linkSafe_idle_of_not_idle (linkSafe_iff.mp h).1 (by rw [hs.1]; decide) true .holdLimit
  · exact .refl s

theorem State.presentBits_of_not_responding (n : Nat) (s : State) (h : s.link.state ≠ .responding) :
    State.presentBits n s = s := by
  induction n with
  | zero => rfl
  | succ n ih => rw [State.presentBits, State.presentBit, if_neg h, ih]

theorem State.preserves_clockOut (s : State) : s.Preserves LinkSafe s.clockOut := by
  by_cases hs : s.link.state = .responding
  · have := s.preserves_presentBits (8 * s.link.response.length - s.link.respPos)
    refine { fab := this.fab, reserve := this.reserve, mask := this.mask, link := fun h => ?_ }
    obtain ⟨h, -, -⟩ := linkSafe_iff.mp h
    rw [s.clockOut_of_left hs (h.left hs)]
    exact linkSafe_idle_of_not_idle h (by rw [hs]; decide) false s.link.lastError
  · rw [State.clockOut, State.presentBits_of_not_responding _ s hs]
    exact .refl s

/-- As long as bits of the response are left, a clock presents the next one. -/
theorem State.clocks_of_responding (bits : List Bool) (s : State) (hs : s.link.state = .responding)
    (hn : s.link.respPos + bits.length ≤ 8 * s.link.response.length) :
    bits.foldl State.clock s = State.presentBits bits.length s := by
  induction bits generalizing s with
  | nil => rfl
  | cons b bits ih =>
    simp only [List.length_cons] at hn
    rw [List.foldl_cons, List.length_cons, State.presentBits, State.clock, if_pos hs]
    by_cases h0 : bits = []
    · subst h0; rfl
    · have hpos := List.length_pos_of_ne_nil h0
      have hlt : s.link.respPos + 1 < 8 * s.link.response.length := by omega
      have e : s.presentBit = s.onLink (fun l => { l with respPos := l.respPos + 1 }) := by
        rw [State.presentBit, if_pos hs, if_pos hlt]
      rw [e]
      refine ih _ hs ?_
      change s.link.respPos + 1 + bits.length ≤ 8 * s.link.response.length
      omega

/-- The eight clocks of a byte in RESPONDING. -/
theorem State.clockByte_of_responding (s : State) (b : Byte) (hs : s.link.state = .responding)
    (hn : s.link.respPos + 8 ≤ 8 * s.link.response.length) : s.clockByte b = State.presentBits 8 s :=
  State.clocks_of_responding (bitsOf b) s hs hn

theorem State.preserves_clockByte (s : State) (b : Byte) : s.Preserves LinkSafe (s.clockByte b) := by
  have hc := s.preserves_clocks (bitsOf b)
  refine { fab := hc.fab, reserve := hc.reserve, mask := hc.mask, link := fun h => ?_ }
  obtain ⟨hr, hb, h8⟩ := linkSafe_iff.mp h
  by_cases hs : s.link.state = .responding
  · have hl := hr.left hs
    have h8 := h8 hs
    rw [s.clockByte_of_responding b hs (by omega)]
    by_cases hlt : s.link.respPos + 8 < 8 * s.link.response.length
    · rw [State.presentBits_of_left 8 s hs hlt]
      refine linkSafe_iff.mpr ⟨⟨hr.asm, hr.empty, fun hn => absurd hs hn, fun _ => hlt, hr.bits, hr.paused, hr.low, hr.wait,
        hr.footing⟩, hb, fun _ => ?_⟩
      change (s.link.respPos + 8) % 8 = 0
      omega
    · have e : 8 * s.link.response.length - s.link.respPos = 8 := by omega
      have := s.preserves_clockOut.link h
      rwa [State.clockOut, e] at this
  · cases hsm : s.link.samples with
    | false => rw [s.clockByte_of_not_samples b hsm hs]; exact h
    | true =>
      rw [s.clockByte_of_samples b hsm hb]
      refine (State.preserves_takeByte _ b).link ?_
      exact linkSafe_iff.mpr ⟨linkRuns_of_samples hsm hr _ _, rfl, fun e => absurd e hs⟩

/-! ## Hard reset -/

theorem State.reset_safe : State.reset.Safe where
  queue := by decide
  reserve := by decide
  mask := by decide
  link := by decide
  buffers := by decide
  lists := by decide
  room := by decide
  jobs := by decide

theorem State.Safe.preserves {t : State} (h : t.Safe) (s : State) : s.Preserves LinkSafe t :=
  ⟨⟨fun _ => h.queue, fun _ => h.buffers, fun _ => h.lists, fun _ => h.room, fun _ => h.jobs⟩, fun _ => h.reserve,
    fun _ => h.mask, fun _ => h.link⟩

theorem State.Safe.keeps {s t : State} (h : s.Safe) (k : s.Keeps t) : t.Safe where
  queue := k.fab.queue h.queue
  reserve := k.reserve h.reserve
  mask := k.mask h.mask
  link := k.preserves.link h.link
  buffers := k.fab.buffers h.buffers
  lists := k.fab.lists h.lists
  room := k.fab.room h.room
  jobs := k.fab.jobs h.jobs

theorem linkSafe_reset (level : Bool) : LinkSafe { Link.reset with cselHigh := level, waitHigh := !level } := by
  cases level <;> decide

theorem State.preserves_hardReset (s : State) (level : Bool) : s.Preserves LinkSafe (s.hardReset level) := by
  unfold State.hardReset
  refine State.Safe.preserves (State.Safe.keeps ?_ (State.keeps_finish _)) s
  obtain ⟨hq, hr, hm, -, hb, hl, hro, hj⟩ := State.reset_safe
  exact ⟨hq, hr, hm, linkSafe_reset level, hb, hl, hro, hj⟩

/-! ## A command and a step -/

theorem State.preserves_command (s : State) (c : Command) (params : List Byte) :
    s.Preserves LinkSafe (s.command c params) :=
  s.preserves_message c.code params (keeps_runCommand c params s)

theorem State.preserves_tick (s : State) : s.Preserves LinkSafe s.tick := by
  have h : s.Preserves LinkSafe s.takeDue := s.keeps_expireDue.preserves.trans (State.preserves_linkLimit _)
  unfold State.tick
  generalize s.takeDue = x at h
  exact ⟨h.fab, h.reserve, h.mask, h.link⟩

/-- Every command preserves the invariants. -/
theorem exec_preserves (c : Instr) (s : State) : ∃ t, exec c s = .next t ∧ s.Preserves LinkSafe t := by
  have message : ∀ (c : Command) (params : List Byte), ∃ t, exec (c.row params) s = .next t ∧ s.Preserves LinkSafe t :=
    fun c params => ⟨_, exec_row c params s, s.preserves_command c params⟩
  cases c with
  | upstreamRequest r =>
    refine ⟨_, rfl, (State.Keeps.trans ?_ (State.keeps_finish _)).preserves⟩
    exact s.keeps_onFabric (g := fun _ f => f.offer r) (s.fab.keeps_offer r).preserves
  | grant => exact ⟨_, rfl, (s.keeps_arbitrate.trans (State.keeps_finish _)).preserves⟩
  | downstreamResponse t code data => exact ⟨_, rfl, (s.keeps_respond t code data).preserves⟩
  | tagTimeout t =>
    refine ⟨_, rfl, State.Keeps.preserves ?_⟩
    split
    · exact (s.keeps_expireTag t).trans (State.keeps_finish _)
    · exact .refl s
  | boundary p between => exact ⟨_, rfl, (s.keeps_boundary p between).preserves⟩
  | holdLimitExpiry k =>
    refine ⟨_, rfl, State.Keeps.preserves ?_⟩
    split
    · refine State.Keeps.trans ?_ (State.keeps_finish _)
      exact s.keeps_onFabric (g := fun env f => f.expireHold env k) (s.fab.keeps_expireHold s.env k).preserves
    · exact .refl s
  | unknownCodeMessage code params => exact ⟨_, rfl, s.preserves_message _ _ (keeps_runMessage _ _ _ s)⟩
  | badCheckMessage code params check => exact ⟨_, rfl, s.preserves_message _ _ (keeps_runMessage _ _ _ s)⟩
  | lengthAbove80 code length => exact ⟨_, rfl, s.preserves_overlong code length⟩
  | linkPause => exact ⟨_, rfl, s.preserves_pause⟩
  | linkResume => exact ⟨_, rfl, s.preserves_resume⟩
  | linkHoldLimit => exact ⟨_, rfl, s.preserves_linkLimit⟩
  | breakLink bits => exact ⟨_, rfl, s.preserves_breakAt bits⟩
  | cut bits => exact ⟨_, rfl, s.preserves_cutAt bits⟩
  | hardReset level => exact ⟨_, rfl, s.preserves_hardReset level⟩
  | messageByteTaken b => exact ⟨_, rfl, s.preserves_clockByte b⟩
  | responseClockedOut => exact ⟨_, rfl, s.preserves_clockOut⟩
  | cselReleasedIdle => exact ⟨_, rfl, s.preserves_releaseIdle⟩
  | ident params => exact message .ident params
  | status params => exact message .status params
  | defineSurface params => exact message .defineSurface params
  | readSurface params => exact message .readSurface params
  | attach params => exact message .attach params
  | detach params => exact message .detach params
  | erase params => exact message .erase params
  | setOrient params => exact message .setOrient params
  | setWindow params => exact message .setWindow params
  | setScroll params => exact message .setScroll params
  | setVisible params => exact message .setVisible params
  | setPolicy params => exact message .setPolicy params
  | close params => exact message .close params
  | discardFilling params => exact ⟨_, rfl, s.preserves_command .discard params⟩
  | discardReady params => exact ⟨_, rfl, s.preserves_command .discard params⟩
  | bindPipe params => exact message .bindPipe params
  | loadExpand params => exact message .loadExpand params
  | loadPalette params => exact message .loadPalette params
  | setTimeout params => exact message .setTimeout params
  | readEvents params => exact message .readEvents params
  | setAttention params => exact message .setAttention params
  | reset params => exact message .reset params

/-- Every step that answers a next state preserves the invariants. -/
theorem step_preserves {s t : State} (h : step s = .next t) : s.Preserves LinkSafe t := by
  unfold step at h
  split at h
  · obtain rfl := Host.Outcome.next.inj h
    exact s.preserves_tick
  · rename_i c cs _
    obtain ⟨t', ht', hp⟩ := exec_preserves c { s with pending := cs }
    rw [ht'] at h
    obtain rfl := Host.Outcome.next.inj h
    exact ⟨hp.fab, hp.reserve, hp.mask, hp.link⟩

/-! ## The obligations -/

/-- Settles O6. -/
theorem queueKept : Obligations.QueueKept := fun _ _ h hs => (step_preserves hs).fab.queue h

/-- Settles O7. -/
theorem reserveKeptByStep : Obligations.ReserveKeptByStep := fun _ _ h hs => (step_preserves hs).reserve h

/-- Settles O8. -/
theorem maskAndLinkKept : Obligations.MaskAndLinkKept := fun _ _ hm hl hs =>
  ⟨(step_preserves hs).mask hm, (step_preserves hs).link hl⟩

/-- Settles O9. -/
theorem buffersKept : Obligations.BuffersKept := fun _ _ h hs => (step_preserves hs).fab.buffers h

/-- Settles O10. -/
theorem listsKept : Obligations.ListsKept := fun _ _ h hs => (step_preserves hs).fab.lists h

/-- Settles O11. -/
theorem roomKeptByStep : Obligations.RoomKeptByStep := fun _ _ h hs => (step_preserves hs).fab.room h

/-- Settles O12. -/
theorem jobsKept : Obligations.JobsKept := fun _ _ h hs => (step_preserves hs).fab.jobs h

/-- Settles O3. -/
theorem resetSafe : Obligations.ResetSafe := State.reset_safe

end Sys2Proof.Machine

/-! # Reset values, the tests of a message, and the rows of the control link -/

namespace Sys2Proof.Machine

set_option Elab.async false

/-! ## Reset (R187) -/

theorem State.tag_reset (t : Fin 32) : State.reset.tag t = TagEntry.cleared := by
  simp [State.tag, State.reset, Vector.get]

theorem State.pipe_reset (p : Fin 4) : State.reset.pipes.get p = { source := 0, enabled := false, counter := 0 } := by
  simp [State.reset, Vector.get]

/-- Settles O2. -/
theorem resetValues : Obligations.ResetValues := by
  refine ⟨rfl, rfl, rfl, rfl, rfl, rfl, rfl, rfl, rfl, rfl, rfl, fun i => ?_, State.tag_reset, State.pipe_reset, by decide,
    by decide, by decide, fun v => ?_, rfl, rfl, rfl, rfl, rfl⟩
  · rw [State.surf_reset]
    exact ⟨rfl, rfl, rfl, rfl, rfl, rfl, rfl⟩
  · simp [State.reset, Tables.reset, vectorGet]

/-- With nothing offered the fabric after hard reset has nothing to do. -/
theorem Fabric.rests_reset (sent : List UpResponse) : Fabric.rests { Fabric.reset with sent := sent } = true := by
  have h : Fabric.rests Fabric.reset = true := by decide
  exact (Fabric.rests_congr rfl rfl rfl rfl).trans h

/-- Settles O4: the fabric after hard reset is at rest. -/
theorem hardResetClears : Obligations.HardResetClears := by
  intro s level h
  refine congrArg Host.Outcome.next ?_
  unfold State.hardReset
  rw [h]
  exact State.finish_of_rest _ (Fabric.rests_reset s.fab.sent)

/-! ## The tests of the link interface (R176) -/

/-- The lengths of the command table. -/
theorem Command.fits_iff {c : Command} {params : List Byte} : c.Fits params ↔ c.lengthFits params = true := by
  cases c
  case loadExpand =>
    have hb := (byteAt params 2).isLt
    simp only [Command.Fits, Command.lengthFits, Bool.and_eq_true, decide_eq_true_eq, beq_iff_eq]
    omega
  case loadPalette =>
    simp only [Command.Fits, Command.lengthFits, Bool.and_eq_true, decide_eq_true_eq, beq_iff_eq]
    omega
  all_goals simp only [Command.Fits, Command.lengthFits, beq_iff_eq]

/-- Settles O20: each test in the order of R176. -/
theorem messageTested : Obligations.MessageTested := by
  intro s params
  refine ⟨fun code check ht hs => ?check, fun code ht hc => ?unknown, fun c ht hf => ?length, fun c ht hf hd h1 h2 => ?busy⟩
  case check =>
    change Host.Outcome.next (s.message code params (runMessage code params check)) = _
    rw [State.message_of_takes s ht, runMessage, if_pos hs, State.answer_failed]
  case unknown =>
    change Host.Outcome.next (s.message code params (runMessage code params (checkByte (messageBody code params)))) = _
    rw [State.message_of_takes s ht, runMessage, if_neg (by simp), hc, State.answer_failed]
  case length =>
    rw [Command.fits_iff, Bool.not_eq_true] at hf
    rw [exec_row, State.command_of_takes s ht, runCommand, if_pos hf, State.answer_failed]
  case busy =>
    rw [Command.fits_iff] at hf
    have hr : c.inResetting = false := by cases c <;> first | rfl | contradiction
    rw [exec_row, State.command_of_takes s ht, runCommand, if_neg (by simp [hf]), if_pos ⟨hd, hr⟩, State.answer_failed]

/-! ## The surface number and the lifecycle test (R25, R180) -/

theorem Command.apply_of_gt {c : Command} (hc : c.namesSurface = true) {params : List Byte} (s : State)
    (h : 7 < (byteAt params 0).toNat) : c.apply params s = s.failed .badValue := by
  cases c
  case ident | status | bindPipe | loadExpand | loadPalette | setTimeout | readEvents | setAttention | reset => cases hc
  all_goals exact s.named_of_gt h _

/-- The status of a command that the lifecycle state does not allow. -/
theorem Command.apply_of_not_admitted {c : Command} (hc : c.namesSurface = true) {params : List Byte} {s : State} {i : Fin 8}
    (hi : (byteAt params 0).toNat = i.val) (ha : c.admittedIn (s.surf i).life = false) :
    c.apply params s = s.failed (if c = .detach ∧ (s.surf i).life = .detaching then .busy else .badState) := by
  by_cases hd : c = .detach
  · subst hd
    simp only [Command.apply, applyDetach, State.named_of_eq s hi]
    cases hl : (s.surf i).life <;> simp_all [Command.admittedIn]
  rw [if_neg fun h => hd h.1]
  cases c
  case detach => exact absurd rfl hd
  case ident | status | bindPipe | loadExpand | loadPalette | setTimeout | readEvents | setAttention | reset => cases hc
  case readSurface => cases ha
  case defineSurface =>
    simp only [Command.apply, applyDefineSurface, State.named_of_eq s hi]
    cases hl : (s.surf i).life <;> simp_all [Command.admittedIn]
  case attach =>
    simp only [Command.apply, applyAttach, State.named_of_eq s hi]
    rw [if_neg (by simpa [Command.admittedIn] using ha)]
  case erase =>
    simp only [Command.apply, applyErase, State.named_of_eq s hi]
    cases hl : (s.surf i).life <;> simp_all [Command.admittedIn]
  all_goals exact s.onAttached_of_not hi (of_decide_eq_false ha) _

/-- Settles O21. -/
theorem surfaceTested : Obligations.SurfaceTested := by
  intro s c params ht hd hf hc
  rw [exec_row_running ht (Command.fits_iff.mp hf) hd]
  constructor
  · intro h
    rw [Command.apply_of_gt hc s h, State.answer_failed]
  · intro i hi ha
    rw [Command.apply_of_not_admitted hc hi ha, State.answer_failed]

end Sys2Proof.Machine

/-! # Commands that change one field, and the rows of the control link -/

namespace Sys2Proof.Machine

set_option Elab.async false

/-! ## READ_EVENTS and SET_ATTENTION (R191, R192) -/

/-- Settles O40. -/
theorem readEventsRemoves : Obligations.ReadEventsRemoves := by
  refine ⟨fun s n ht hd => ?_, fun r => ?_⟩
  · rw [show exec (.readEvents [n]) s = _ from exec_row_running (c := .readEvents) ht rfl hd]
    congr 1
    change State.answer (if 1 ≤ n.toNat ∧ n.toNat ≤ 8 then _ else _) = _
    split <;> rfl
  · refine ⟨rfl, ?_, rfl, rfl, rfl, fun j hj => ?_, fun j hj => ?_, fun j hj => ?_⟩
    · cases hk : r.kind <;> simp [EventRecord.bytes, byteAt, hk, EventKind.code]
    · match j, hj with
      | 0, _ | 1, _ | 2, _ | 3, _ => rfl
    · match j, hj with
      | 0, _ | 1, _ => rfl
    · match j, hj with
      | 0, _ | 1, _ | 2, _ | 3, _ => rfl

theorem half_toNat (hi lo : Byte) : (hi ++ lo : Half).toNat = hi.toNat * 256 + lo.toNat := by
  rw [BitVec.toNat_append, ← Nat.shiftLeft_add_eq_or_of_lt lo.isLt, Nat.shiftLeft_eq]

theorem byte_lt_64_iff (b : Byte) : b.toNat < 64 ↔ ¬ (b.getLsbD 6 = true ∨ b.getLsbD 7 = true) := by
  revert b
  decide

/-- Settles O41. -/
theorem setAttentionReplaces : Obligations.SetAttentionReplaces := by
  intro s lo hi ht hd
  rw [show exec (.setAttention [lo, hi]) s = _ from exec_row_running (c := .setAttention) ht rfl hd]
  congr 1
  change State.answer (if (hi ++ lo : Half).toNat < 0x4000 then _ else _) = _
  have h : (hi ++ lo : Half).toNat < 0x4000 ↔ ¬ (hi.getLsbD 6 = true ∨ hi.getLsbD 7 = true) := by
    rw [← byte_lt_64_iff, half_toNat]
    have := lo.isLt
    omega
  by_cases hb : hi.getLsbD 6 = true ∨ hi.getLsbD 7 = true
  · rw [if_neg (fun e => h.mp e hb), if_pos hb, State.answer_failed]
  · rw [if_pos (h.mpr hb), if_neg hb]
    rfl

/-! ## Bytes taken (R171, R172) -/

/-- The row of a byte in terms of the byte taken. -/
theorem exec_messageByteTaken_of_samples {s : State} (b : Byte) (hs : s.link.samples = true) (hb : s.link.bitCount = 0) :
    exec (.messageByteTaken b) s =
      .next ((s.onLink (fun l => { l with bitCount := 0, shift := 0, cselHigh := false })).takeByte b) :=
  congrArg Host.Outcome.next (s.clockByte_of_samples b hs hb)

/-- Settles O42. -/
theorem bytesTaken : Obligations.BytesTaken := by
  intro s b hb
  refine ⟨fun hs hw => ?begins, fun hs hne hn => ?stored, fun hs h1 h80 => ?above, fun h => ?ignored, fun code ht h80 => ?row⟩
  case begins =>
    rw [exec_messageByteTaken_of_samples b (by simp [Link.samples, hs, hw]) hb]
    simp [State.takeByte, State.onLink, State.store, hs, hw]
  case stored =>
    rw [exec_messageByteTaken_of_samples b (by simp [Link.samples, hs]) hb]
    have hpos := List.length_pos_of_ne_nil hne
    have h1 : ¬ ((s.link.asm ++ [b]).length = 2 ∧ 80 < (byteAt (s.link.asm ++ [b]) 1).toNat) := by
      rintro ⟨h2, h80⟩
      have h1 : s.link.asm.length = 1 := by simpa using h2
      rw [if_pos h1] at hn
      simp [byteAt, List.getElem?_append_right, h1] at h80
      omega
    have h2 : ¬ (s.link.asm ++ [b]).length = (byteAt (s.link.asm ++ [b]) 1).toNat + 3 := by
      simp only [List.length_append, List.length_singleton]
      by_cases h1 : s.link.asm.length = 1
      · omega
      · rw [if_neg h1] at hn
        rw [byteAt_append_of_lt (by omega)]
        omega
    simp only [State.takeByte, State.onLink, State.receive, hs, if_neg h1, if_neg h2, State.store]
  case above =>
    rw [exec_messageByteTaken_of_samples b (by simp [Link.samples, hs]) hb]
    have hp : (s.link.asm ++ [b]).length = 2 ∧ 80 < (byteAt (s.link.asm ++ [b]) 1).toNat := by
      simp [byteAt, List.getElem?_append_right, h1, h80]
    simp only [State.takeByte, State.onLink, State.receive, hs, if_pos hp]
    rfl
  case ignored =>
    refine congrArg Host.Outcome.next (s.clockByte_of_not_samples b ?_ ?_)
    · rcases h with ⟨h1, h2⟩ | h <;> simp [Link.samples, *]
    · rcases h with ⟨h1, h2⟩ | h <;> simp [*]
  case row =>
    refine congrArg Host.Outcome.next ?_
    rw [State.overlong, if_pos ⟨ht, h80⟩, State.answer_failed]

/-! ## Pause, resume, release (R169, R172 to R175) -/

/-- Settles O43. -/
theorem pausedMessage : Obligations.PausedMessage := by
  intro s
  refine ⟨fun hs hb => ?pause, fun hs hn => ?resume, fun hs hn => ?late, fun hs => ?select, fun hs hn => ?limit, fun hs hn => ?before⟩
    <;> refine congrArg Host.Outcome.next ?_
  case pause => simp [State.pause, State.release, State.onLink, hs, hb]
  case resume =>
    have hn : s.pausedFor ≤ holdLimitTime := hn
    simp [State.resume, State.onLink, hs, hn]
  case late =>
    have hn : ¬ s.pausedFor ≤ holdLimitTime := Nat.not_le_of_lt hn
    simp [State.resume, State.abandon, State.onLink, Link.idle, hs, hn]
  case select => simp [State.resume, State.onLink, hs]
  case limit =>
    have hn : holdLimitTime ≤ s.pausedFor := hn
    simp [State.linkLimit, State.abandon, State.onLink, Link.idle, hs, hn]
  case before =>
    have hn : ¬ holdLimitTime ≤ s.pausedFor := Nat.not_le_of_lt hn
    simp [State.linkLimit, hn]

/-- 1 to 7 bits sampled from a link that holds none. -/
theorem State.release_of_few {s : State} {bits : List Bool} (h0 : bits ≠ []) (hn : bits.length ≤ 7) (hb : s.link.bitCount = 0)
    (hs : s.link.samples = true) :
    (bits.foldl State.clock s).release = s.onLink (fun l => { l.idle true with lastError := .brk }) := by
  rw [State.clocks_of_few s bits hs (by rw [hb]; simpa using Nat.lt_succ_of_le hn) h0]
  have hpos := List.length_pos_of_ne_nil h0
  have hne : ¬ (s.link.bitCount + BitVec.ofNat 3 bits.length = 0) := by
    rw [hb]
    intro e
    have := congrArg BitVec.toNat e
    simp at this
    omega
  rcases Link.samples_iff.mp hs with ⟨h, -⟩ | h
  · simp only [State.release, State.onLink, h, if_neg hne]
    rfl
  · simp only [State.release, State.onLink, h, if_neg hne]
    rfl

/-- Bits on a link that samples none and does not respond are ignored. -/
theorem State.clocks_of_not_samples {s : State} (bits : List Bool) (hs : s.link.samples = false)
    (hr : s.link.state ≠ .responding) : bits.foldl State.clock s = s := by
  induction bits with
  | nil => rfl
  | cons b bits ih =>
    rw [List.foldl_cons, State.clock, if_neg hr, State.sampleBit, if_neg (by simp [hs]), ih]

/-- Settles O44. -/
theorem linkReleased : Obligations.LinkReleased := by
  intro s
  refine ⟨fun bits h0 hn hb => ⟨fun hs => ?brk, fun hs hw => ?footing⟩, fun hs hb => ?idle, fun bits hs hn => ?cut,
    fun bits hs hl hn => ?whole, fun b hs hn => ?byte, fun hs hl => ?out, fun hc => ?high, fun hc hs => ?driven,
    fun n hc hs hn => ?level⟩
  case brk =>
    have hsm : s.link.samples = true := Link.samples_iff.mpr (hs.symm)
    refine congrArg Host.Outcome.next ?_
    rw [State.breakAt, if_pos (hs.symm.imp_left And.left), State.release_of_few h0 hn hb hsm]
    rfl
  case footing =>
    refine congrArg Host.Outcome.next ?_
    rw [State.breakAt, if_pos (.inl hs),
      State.clocks_of_not_samples bits (by simp [Link.samples, hs, hw]) (by simp [hs])]
    simp [State.release, State.onLink, hs, hb]
  case idle =>
    refine congrArg Host.Outcome.next ?_
    simp [State.releaseIdle, State.release, State.onLink, hs, hb]
  case cut =>
    refine congrArg Host.Outcome.next ?_
    rw [State.cutAt, if_pos hs, State.presentBits_of_left bits s hs hn]
    simp [State.release, State.present, State.onLink, Link.idle, hs]
  case whole =>
    refine congrArg Host.Outcome.next ?_
    obtain ⟨k, rfl⟩ : ∃ k, bits = (8 * s.link.response.length - s.link.respPos) + k := ⟨_, (Nat.add_sub_cancel' (by omega)).symm⟩
    rw [State.cutAt, if_pos hs, State.presentBits_add, ← State.clockOut, State.clockOut_of_left s hs hl,
      State.presentBits_of_not_responding _ _ (by simp [State.present, State.onLink, Link.idle])]
    simp [State.release, State.present, State.onLink, Link.idle]
  case byte =>
    refine congrArg Host.Outcome.next ?_
    rw [State.clockByte_of_responding s b hs (by omega), State.presentBits_of_left 8 s hs hn]
    rfl
  case out => exact congrArg Host.Outcome.next (State.clockOut_of_left s hs hl)
  case high => simp [State.cdoLevel, hc]
  case driven => simp [State.cdoLevel, hc, hs]
  case level => simp [State.cdoLevel, hc, hs, hn, responseBit]

end Sys2Proof.Machine

/-! # STATUS, READ_SURFACE, and the commands that change a surface's fields, a pipe or a table -/

namespace Sys2Proof.Machine

set_option Elab.async false

/-! ## STATUS (R182) -/

/-- Each tag is in one of the three states. -/
theorem countTags_states (tags : Vector TagEntry 32) :
    countTags tags TagEntry.isFree + countTags tags TagEntry.isIssued + countTags tags TagEntry.isQuarantined = 32 := by
  have key : ∀ l : List TagEntry,
      l.countP TagEntry.isFree + l.countP TagEntry.isIssued + l.countP TagEntry.isQuarantined = l.length := by
    intro l
    induction l with
    | nil => rfl
    | cons e l ih =>
      have one : (if e.isFree then 1 else 0) + (if e.isIssued then 1 else 0) + (if e.isQuarantined then 1 else 0) = 1 := by
        unfold TagEntry.isFree TagEntry.isIssued TagEntry.isQuarantined
        cases e.st <;> rfl
      simp only [List.countP_cons, List.length_cons]
      omega
  have := key tags.toList
  simpa [countTags] using this

theorem attnLow_iff {mask : Half} {events : List EventRecord} :
    attnLow mask events = true ↔ ∃ r ∈ events, mask.getLsbD r.kind.code = true := by
  simp [attnLow, kindEnabled]

/-- Settles O23. -/
theorem statusAnswered : Obligations.StatusAnswered := by
  intro s ht
  refine ⟨?_, countTags_states s.tags⟩
  rw [show exec (.status []) s = _ from exec_row_inResetting (c := .status) ht rfl rfl]
  congr 1
  change State.replied { s with link := { s.link with lastError := .none } } .ok s.statusData = _
  congr 1
  have hdev : s.device.code = if s.device = DeviceState.running then (0 : Byte) else 1 := by cases s.device <;> rfl
  have herr : s.link.lastError.code =
      (match s.link.lastError with | .none => 0 | .brk => 1 | .holdLimit => 2 | .cut => 3) := by
    cases s.link.lastError <;> rfl
  rw [State.statusData, hdev, herr]
  simp only [attnLow_iff]
  rfl

/-! ## READ_SURFACE (R27) -/

/-- Settles O25. -/
theorem readSurfaceAnswers : Obligations.ReadSurfaceAnswers := by
  intro s i p ht hd hp
  rw [exec_readSurface ht hd]
  simp only [applyReadSurface, State.named_of_eq s (show (byteAt [p] 0).toNat = i.val from hp)]
  cases hl : (s.surf i).life <;> rfl

/-! ## Fields of an ATTACHED surface (R35 to R37) -/

theorem Descriptor.isStream_iff {d : Descriptor} : d.isStream = true ↔ d.mode = 1 := by simp [Descriptor.isStream]

/-- A test in the words of a statement decides the reply. -/
theorem State.answer_ite (s : State) {p : Prop} [Decidable p] {q : Prop} [Decidable q] (h : p ↔ q) (t : State) (st : Status) :
    (.next (State.answer (if p then t.done else s.failed st)) : Host.Outcome State Fault Refusal) =
      .next (if q then t.replied .ok [] else s.replied st []) := by
  by_cases hq : q
  · rw [if_pos (h.mpr hq), if_pos hq, State.answer_done]
  · rw [if_neg (fun e => hq (h.mp e)), if_neg hq, State.answer_failed]

/-- Settles O30. -/
theorem placementFieldsChange : Obligations.PlacementFieldsChange := by
  intro s i params hd hi hl
  refine ⟨fun hn ht => ?orient, fun hn ht => ?window⟩
  case orient =>
    rw [show exec (.setOrient params) s = _ from exec_row_running (c := .setOrient) ht (by simp [Command.lengthFits, hn]) hd]
    simp only [Command.apply, applySetOrient, State.onAttached_of_eq s hi hl]
    refine State.answer_ite s (and_congr_right fun _ => ?_) _ _
    rw [Descriptor.orientFits, ← Descriptor.isStream_iff]
    cases (s.surf i).desc.isStream <;> simp
  case window =>
    rw [show exec (.setWindow params) s = _ from exec_row_running (c := .setWindow) ht (by simp [Command.lengthFits, hn]) hd]
    simp only [Command.apply, applySetWindow, State.onAttached_of_eq s hi hl]
    by_cases hm : (s.surf i).desc.mode = 1
    · rw [if_neg (show ¬ (s.surf i).desc.isStream = false by simp [Descriptor.isStream_iff.mpr hm]), if_neg (show ¬ (s.surf i).desc.mode ≠ 1 by simp [hm])]
      refine State.answer_ite s ?_ _ _
      simp [Descriptor.windowInRange, and_assoc]
    · rw [if_pos (show (s.surf i).desc.isStream = false by simpa [Descriptor.isStream] using hm), if_pos hm, State.answer_failed]

/-- Settles O31. -/
theorem scanoutFieldsChange : Obligations.ScanoutFieldsChange := by
  intro s i params hd hi hl
  refine ⟨fun hn ht => ?scroll, fun hn ht => ?visible⟩
  case scroll =>
    rw [show exec (.setScroll params) s = _ from exec_row_running (c := .setScroll) ht (by simp [Command.lengthFits, hn]) hd]
    simp only [Command.apply, applySetScroll, State.onAttached_of_eq s hi hl]
    refine State.answer_ite s ?_ _ _
    unfold Descriptor.scrollInRange
    split
    · rename_i h0
      simp [h0]
    · rename_i h0
      rw [decide_eq_true_iff]
      exact ⟨.inl, fun h => h.elim (fun e => e) fun e => absurd e.1 h0⟩
  case visible =>
    rw [show exec (.setVisible params) s = _ from exec_row_running (c := .setVisible) ht (by simp [Command.lengthFits, hn]) hd]
    simp only [Command.apply, applySetVisible, State.onAttached_of_eq s hi hl]
    refine State.answer_ite s ?_ _ _
    simp [Descriptor.visibleInRange]

/-! ## BIND_PIPE (R113) -/

/-- Settles O37. -/
theorem bindPipeWrites : Obligations.BindPipeWrites := by
  intro s a b c ht hd hr
  rw [show exec (.bindPipe [a, b, c]) s = _ from exec_row_running (c := .bindPipe) ht rfl hd]
  refine ⟨fun h => ?_, fun p ha hb hc => ?_⟩
  · congr 1
    change State.answer (if h : a.toNat < 4 then if b.toNat < 64 ∧ c.toNat ≤ 1 then _ else _ else _) = _
    split
    · rw [if_neg (by omega), State.answer_failed]
    · rw [State.answer_failed]
  · congr 1
    let e := fun h : a.toNat < 4 => ({ s.pipes.get ⟨a.toNat, h⟩ with source := b.setWidth 6, enabled := c == 1 } : Pipe)
    change State.answer (if h : a.toNat < 4 then if b.toNat < 64 ∧ c.toNat ≤ 1 then
      (State.finish { s with pipes := s.pipes.set a.toNat (e h) h }).okWith (wordBytes (s.pipes.get ⟨a.toNat, h⟩).counter)
      else _ else _) = _
    have hp := p.isLt
    have hc1 : (c == 1) = decide (c.toNat = 1) := by
      rw [Bool.eq_iff_iff, beq_iff_eq, decide_eq_true_iff]
      exact ⟨fun e => by rw [e]; rfl, fun e => BitVec.eq_of_toNat_eq e⟩
    obtain ⟨n, hn⟩ := p
    obtain rfl : a.toNat = n := ha
    rw [dif_pos (by omega), if_pos (by omega),
      State.finish_of_rest { s with pipes := s.pipes.set a.toNat (e hp) hp } hr, State.answer_okWith]
    simp only [e, hc1]

/-! ## LOAD_EXPAND and LOAD_PALETTE (R61, R62) -/

theorem length_paletteEntries (n : Nat) (l : List Byte) (h : l.length = 3 * n) : (paletteEntries l).length = n := by
  induction n generalizing l with
  | zero => rw [List.length_eq_zero_iff.mp h]; rfl
  | succ n ih =>
    match l, h with
    | b :: g :: r :: l, h =>
      simp only [List.length_cons] at h
      simp only [paletteEntries, List.length_cons, ih l (by omega)]

theorem getElem?_paletteEntries (n : Nat) (l : List Byte) (h : l.length = 3 * n) (k : Nat) (hk : k < n) :
    (paletteEntries l)[k]? =
      some { blue := byteAt l (3 * k), green := byteAt l (3 * k + 1), red := byteAt l (3 * k + 2) } := by
  induction n generalizing l k with
  | zero => omega
  | succ n ih =>
    match l, h with
    | b :: g :: r :: l, h =>
      simp only [List.length_cons] at h
      cases k with
      | zero => rfl
      | succ k => exact ih l (by omega) k (by omega)

/-- An entry of a table after values have been written into it. -/
theorem loadTable_entry {α : Type} {n : Nat} (t : Vector α n) (first : Nat) {vals : List α} {m : Nat} (hm : vals.length = m)
    {v : Nat → α} (hv : ∀ k, k < m → vals[k]? = some (v k)) (k : Fin n) :
    (loadTable t first vals).get k = if first ≤ k.val ∧ k.val < first + m then v (k.val - first) else t.get k := by
  rw [loadTable_get]
  subst hm
  by_cases hf : first ≤ k.val
  · by_cases hk : k.val < first + vals.length
    · rw [if_pos hf, if_pos ⟨hf, hk⟩, hv _ (by omega)]
      rfl
    · rw [if_pos hf, if_neg (fun h => hk h.2), List.getElem?_eq_none (by omega)]
      rfl
  · rw [if_neg hf, if_neg (fun h => hf h.1)]

theorem getElem?_byteAt (l : List Byte) (k : Nat) (hk : k < l.length) : l[k]? = some (byteAt l k) := by
  simp [byteAt, hk]

/-- A table that takes the values where it is the one named, and stays as it is otherwise. -/
theorem get_ite_loadTable {α : Type} {n : Nat} (t : Vector α n) (first : Nat) {vals : List α} {m : Nat} (hm : vals.length = m)
    {v : Nat → α} (hv : ∀ k, k < m → vals[k]? = some (v k)) (p : Prop) [Decidable p] (k : Fin n) :
    (if p then loadTable t first vals else t).get k =
      if p ∧ first ≤ k.val ∧ k.val < first + m then v (k.val - first) else t.get k := by
  by_cases hp : p
  · simp only [hp, if_true, true_and, loadTable_entry t first hm hv]
  · simp [hp]

/-- R61: what LOAD_EXPAND with `vals` leaves of the tables. -/
theorem applyLoadExpand_eq (s : State) (channel first count : Byte) (vals : List Byte) :
    applyLoadExpand (channel :: first :: count :: vals) s =
      if channel.toNat ≤ 2 ∧ first.toNat + vals.length ≤ (if channel = 1 then 64 else 32) then
        ({ s with tables := { s.tables with
            red := if channel = 0 then loadTable s.tables.red first.toNat vals else s.tables.red
            green := if channel = 1 then loadTable s.tables.green first.toNat vals else s.tables.green
            blue := if channel = 2 then loadTable s.tables.blue first.toNat vals else s.tables.blue } } : State).done
      else s.failed .badValue := by
  have is : ∀ n : Byte, channel.toNat = n.toNat ↔ channel = n := fun n => ⟨BitVec.eq_of_toNat_eq, congrArg _⟩
  have is0 : channel.toNat = 0 ↔ channel = 0 := is 0
  have is1 : channel.toNat = 1 ↔ channel = 1 := is 1
  have is2 : channel.toNat = 2 ↔ channel = 2 := is 2
  change (if 2 < channel.toNat then _ else if (if channel.toNat = 1 then 64 else 32) < first.toNat + vals.length then _
    else State.done { s with tables := if channel.toNat = 0 then { s.tables with red := loadTable s.tables.red first.toNat vals }
      else if channel.toNat = 1 then { s.tables with green := loadTable s.tables.green first.toNat vals }
      else { s.tables with blue := loadTable s.tables.blue first.toNat vals } }) = _
  simp only [is0, is1]
  generalize (if channel = 1 then 64 else 32) = size
  by_cases h2 : 2 < channel.toNat
  · rw [if_pos h2, if_neg (by omega)]
  by_cases hs : size < first.toNat + vals.length
  · rw [if_neg h2, if_pos hs, if_neg (by omega)]
  rw [if_neg h2, if_neg hs, if_pos (⟨by omega, by omega⟩ : channel.toNat ≤ 2 ∧ first.toNat + vals.length ≤ size)]
  by_cases c0 : channel = 0
  · simp [c0]
  by_cases c1 : channel = 1
  · simp [c1]
  have c2 : channel = 2 := is2.mp (by
    have := mt is0.mp c0
    have := mt is1.mp c1
    omega)
  simp [c2]

/-- R62: what LOAD_PALETTE with `vals` leaves of the tables. -/
theorem applyLoadPalette_eq (s : State) (palette first count : Byte) (vals : List Byte) :
    applyLoadPalette (palette :: first :: count :: vals) s =
      if palette.toNat ≤ 1 ∧ first.toNat + (paletteEntries vals).length ≤ 256 then
        ({ s with tables := { s.tables with
            palA := if palette = 0 then loadTable s.tables.palA first.toNat (paletteEntries vals) else s.tables.palA
            palB := if palette = 1 then loadTable s.tables.palB first.toNat (paletteEntries vals) else s.tables.palB } }
          : State).done
      else s.failed .badValue := by
  have is : ∀ n : Byte, palette.toNat = n.toNat ↔ palette = n := fun n => ⟨BitVec.eq_of_toNat_eq, congrArg _⟩
  have is0 : palette.toNat = 0 ↔ palette = 0 := is 0
  have is1 : palette.toNat = 1 ↔ palette = 1 := is 1
  change (if 1 < palette.toNat then _ else if 256 < first.toNat + (paletteEntries vals).length then _
    else State.done { s with tables :=
      if palette.toNat = 0 then { s.tables with palA := loadTable s.tables.palA first.toNat (paletteEntries vals) }
      else { s.tables with palB := loadTable s.tables.palB first.toNat (paletteEntries vals) } }) = _
  simp only [is0]
  by_cases h1 : 1 < palette.toNat
  · rw [if_pos h1, if_neg (by omega)]
  by_cases hs : 256 < first.toNat + (paletteEntries vals).length
  · rw [if_neg h1, if_pos hs, if_neg (by omega)]
  rw [if_neg h1, if_neg hs,
    if_pos (⟨by omega, by omega⟩ : palette.toNat ≤ 1 ∧ first.toNat + (paletteEntries vals).length ≤ 256)]
  by_cases c0 : palette = 0
  · simp [c0]
  have c1 : palette = 1 := is1.mp (by
    have := mt is0.mp c0
    omega)
  simp [c1]

/-- Settles O38: the table that the first byte names takes the values. -/
theorem tablesLoaded : Obligations.TablesLoaded := by
  intro s first count hd
  refine ⟨fun channel vals hn h1 h64 ht => ?expand, fun palette vals hn h1 h24 ht => ?palette⟩
  case expand =>
    have hfit : Command.loadExpand.lengthFits (channel :: first :: count :: vals) = true := by
      have e : (byteAt (channel :: first :: count :: vals) 2) = count := rfl
      simp only [Command.lengthFits, List.length_cons, hn, e, Bool.and_eq_true, decide_eq_true_eq, beq_iff_eq]
      omega
    refine ⟨_, exec_row_running (c := .loadExpand) ht hfit hd, ?_⟩
    rw [Command.apply, applyLoadExpand_eq, hn]
    by_cases hc : channel.toNat ≤ 2 ∧ first.toNat + count.toNat ≤ (if channel = 1 then 64 else 32)
    all_goals simp only [hc, if_true, if_false]
    · have hv : ∀ k, k < count.toNat → vals[k]? = some (byteAt vals k) := fun k hk => getElem?_byteAt vals k (hn ▸ hk)
      exact ⟨rfl, rfl, rfl, get_ite_loadTable _ _ hn hv _, get_ite_loadTable _ _ hn hv _, get_ite_loadTable _ _ hn hv _⟩
    · exact State.answer_failed s _
  case palette =>
    have hfit : Command.loadPalette.lengthFits (palette :: first :: count :: vals) = true := by
      have e : (byteAt (palette :: first :: count :: vals) 2) = count := rfl
      simp only [Command.lengthFits, List.length_cons, hn, e, Bool.and_eq_true, decide_eq_true_eq, beq_iff_eq]
      omega
    have hm := length_paletteEntries count.toNat vals hn
    refine ⟨_, exec_row_running (c := .loadPalette) ht hfit hd, ?_⟩
    rw [Command.apply, applyLoadPalette_eq, hm]
    by_cases hc : palette.toNat ≤ 1 ∧ first.toNat + count.toNat ≤ 256
    all_goals simp only [hc, if_true, if_false]
    · have hv := getElem?_paletteEntries count.toNat vals hn
      exact ⟨rfl, rfl, rfl, rfl, get_ite_loadTable _ _ hm hv _, get_ite_loadTable _ _ hm hv _⟩
    · exact State.answer_failed s _

end Sys2Proof.Machine

/-! # The descriptor block and the conversions -/

namespace Sys2Proof.Machine

set_option Elab.async false

/-! ## Multi-byte fields, little-endian -/

theorem append_toNat {m n : Nat} (x : BitVec m) (y : BitVec n) : (x ++ y).toNat = x.toNat * 2 ^ n + y.toNat := by
  rw [BitVec.toNat_append, ← Nat.shiftLeft_add_eq_or_of_lt y.isLt, Nat.shiftLeft_eq]

theorem extract_toNat {n : Nat} (v : BitVec n) (s k : Nat) : (v.extractLsb' s k).toNat = v.toNat / 2 ^ s % 2 ^ k := by
  rw [BitVec.extractLsb'_toNat, Nat.shiftRight_eq_div_pow]

/-- The number that bytes give, the first the lowest. -/
def littleEndian : List Byte → Nat
  | [] => 0
  | b :: l => b.toNat + 256 * littleEndian l

theorem littleEndian_halfBytes (v : Half) : littleEndian (halfBytes v) = v.toNat := by
  have := v.isLt
  simp only [halfBytes, littleEndian, extract_toNat]
  omega

theorem littleEndian_wordBytes (v : Word) : littleEndian (wordBytes v) = v.toNat := by
  have := v.isLt
  simp only [wordBytes, littleEndian, extract_toNat]
  omega

theorem littleEndian_addrBytes (v : Addr) : littleEndian (addrBytes v) = v.toNat := by
  have := v.isLt
  simp only [addrBytes, littleEndian, extract_toNat]
  omega

theorem littleEndian_injective {l m : List Byte} (hl : l.length = m.length) (h : littleEndian l = littleEndian m) : l = m := by
  induction l generalizing m with
  | nil => exact (List.length_eq_zero_iff.mp hl.symm).symm
  | cons b l ih =>
    match m, hl with
    | c :: m, hl =>
      have := b.isLt
      have := c.isLt
      simp only [littleEndian] at h
      rw [show b = c from BitVec.eq_of_toNat_eq (by omega), ih (by simpa using hl) (by omega)]

theorem halfAt_toNat (l : List Byte) (k : Nat) : (halfAt l k).toNat = littleEndian [byteAt l k, byteAt l (k + 1)] := by
  simp only [halfAt, append_toNat, littleEndian]
  omega

theorem wordAt_toNat (l : List Byte) (k : Nat) :
    (wordAt l k).toNat = littleEndian [byteAt l k, byteAt l (k + 1), byteAt l (k + 2), byteAt l (k + 3)] := by
  simp only [wordAt, append_toNat, halfAt_toNat, littleEndian, show k + 2 + 1 = k + 3 from rfl]
  omega

theorem addrAt_toNat (l : List Byte) (k : Nat) :
    (addrAt l k).toNat =
      littleEndian [byteAt l k, byteAt l (k + 1), byteAt l (k + 2), byteAt l (k + 3), byteAt l (k + 4)] := by
  simp only [addrAt, append_toNat, wordAt_toNat, littleEndian]
  omega

/-! A field read from a place where the bytes of a value stand is the value. -/

theorem byteAt_of_drop {l rest : List Byte} {k j : Nat} {v : Byte} (h : l.drop k = v :: rest) (hj : j = k) : byteAt l j = v := by
  subst hj
  have := congrArg (·.head?) h
  simp only [List.head?_drop, List.head?_cons] at this
  simp [byteAt, List.getD_eq_getElem?_getD, this]

theorem drop_succ_of_drop {l rest : List Byte} {k : Nat} {v : Byte} (h : l.drop k = v :: rest) : l.drop (k + 1) = rest := by
  rw [← List.drop_drop, h]
  rfl

theorem halfAt_of_drop {l rest : List Byte} {k : Nat} {v : Half} (h : l.drop k = halfBytes v ++ rest) : halfAt l k = v := by
  refine BitVec.eq_of_toNat_eq ?_
  rw [halfAt_toNat, byteAt_of_drop h rfl, byteAt_of_drop (drop_succ_of_drop h) rfl]
  exact littleEndian_halfBytes v

theorem wordAt_of_drop {l rest : List Byte} {k : Nat} {v : Word} (h : l.drop k = wordBytes v ++ rest) : wordAt l k = v := by
  refine BitVec.eq_of_toNat_eq ?_
  have h1 := drop_succ_of_drop h
  have h2 := drop_succ_of_drop h1
  rw [wordAt_toNat, byteAt_of_drop h rfl, byteAt_of_drop h1 rfl, byteAt_of_drop h2 rfl, byteAt_of_drop (drop_succ_of_drop h2) rfl]
  exact littleEndian_wordBytes v

theorem addrAt_of_drop {l rest : List Byte} {k : Nat} {v : Addr} (h : l.drop k = addrBytes v ++ rest) : addrAt l k = v := by
  refine BitVec.eq_of_toNat_eq ?_
  have h1 := drop_succ_of_drop h
  have h2 := drop_succ_of_drop h1
  have h3 := drop_succ_of_drop h2
  rw [addrAt_toNat, byteAt_of_drop h rfl, byteAt_of_drop h1 rfl, byteAt_of_drop h2 rfl, byteAt_of_drop h3 rfl,
    byteAt_of_drop (drop_succ_of_drop h3) rfl]
  exact littleEndian_addrBytes v

@[simp] theorem halfBytes_halfAt (l : List Byte) (k : Nat) : halfBytes (halfAt l k) = [byteAt l k, byteAt l (k + 1)] :=
  littleEndian_injective rfl (by rw [littleEndian_halfBytes, halfAt_toNat])

@[simp] theorem wordBytes_wordAt (l : List Byte) (k : Nat) :
    wordBytes (wordAt l k) = [byteAt l k, byteAt l (k + 1), byteAt l (k + 2), byteAt l (k + 3)] :=
  littleEndian_injective rfl (by rw [littleEndian_wordBytes, wordAt_toNat])

@[simp] theorem addrBytes_addrAt (l : List Byte) (k : Nat) :
    addrBytes (addrAt l k) = [byteAt l k, byteAt l (k + 1), byteAt l (k + 2), byteAt l (k + 3), byteAt l (k + 4)] :=
  littleEndian_injective rfl (by rw [littleEndian_addrBytes, addrAt_toNat])

/-! ## The descriptor block (R24) -/

/-- The number in `size` bytes from a place on. -/
theorem sum_field (l : List Byte) (k size : Nat) :
    ((List.range size).map (fun j => (byteAt l (k + j)).toNat * 256 ^ j)).sum =
      littleEndian ((List.range size).map (fun j => byteAt l (k + j))) := by
  induction size generalizing k with
  | zero => rfl
  | succ n ih =>
    rw [List.range_succ_eq_map]
    simp only [List.map_cons, List.map_map, List.sum_cons, littleEndian, Nat.pow_zero, Nat.mul_one]
    have e : ((fun j => (byteAt l (k + j)).toNat * 256 ^ j) ∘ Nat.succ) =
        fun j => 256 * ((byteAt l (k + 1 + j)).toNat * 256 ^ j) := by
      funext j
      simp only [Function.comp, Nat.succ_eq_add_one, Nat.pow_succ, show k + (j + 1) = k + 1 + j by omega]
      ring
    have e' : ((fun j => byteAt l (k + j)) ∘ Nat.succ) = fun j => byteAt l (k + 1 + j) := by
      funext j
      simp only [Function.comp, Nat.succ_eq_add_one, show k + (j + 1) = k + 1 + j by omega]
    rw [e, e', List.sum_map_mul_left, ih]

/-- The block's bytes with its fields joined from the right, which is the form that evaluates field by field. -/
def Descriptor.fields (d : Descriptor) (i : Fin 8) : List Byte :=
  [BitVec.ofNat 8 i.val, d.mode, d.pipe, d.format, d.palette, d.extra] ++ (halfBytes d.width ++ (halfBytes d.height ++
    (halfBytes d.pitch ++ (wordBytes d.blank ++ ([d.count, d.orient] ++ (addrBytes d.apBase ++ (addrBytes d.base0 ++
    (addrBytes d.base1 ++ (addrBytes d.base2 ++ (addrBytes d.base3 ++ (halfBytes d.bandTop ++ (halfBytes d.bandRows ++
    (halfBytes d.scroll ++ (halfBytes d.visTop ++ (halfBytes d.visBottom ++ (halfBytes d.xs ++ (halfBytes d.xe ++
    (halfBytes d.ys ++ (halfBytes d.ye ++ [d.order, d.present, d.minShow, d.flags, d.holdLimit])))))))))))))))))))

theorem Descriptor.block_eq (d : Descriptor) (i : Fin 8) : d.block i = d.fields i := by
  delta Descriptor.block Descriptor.fields
  simp only [List.append_assoc]

theorem Descriptor.ofBlock_block (d : Descriptor) (i : Fin 8) : Descriptor.ofBlock (d.block i) = d := by
  have one : ∀ {rest : List Byte} (k : Nat) (v : Byte), (d.fields i).drop k = v :: rest → byteAt (d.fields i) k = v :=
    fun _ _ h => byteAt_of_drop h rfl
  have half : ∀ {rest : List Byte} (k : Nat) (v : Half), (d.fields i).drop k = halfBytes v ++ rest → halfAt (d.fields i) k = v :=
    fun _ _ h => halfAt_of_drop h
  have addr : ∀ {rest : List Byte} (k : Nat) (v : Addr), (d.fields i).drop k = addrBytes v ++ rest → addrAt (d.fields i) k = v :=
    fun _ _ h => addrAt_of_drop h
  rw [Descriptor.block_eq]
  unfold Descriptor.ofBlock
  rw [one 1 d.mode rfl, one 2 d.pipe rfl, one 3 d.format rfl, one 4 d.palette rfl, one 5 d.extra rfl, half 6 d.width rfl,
    half 8 d.height rfl, half 10 d.pitch rfl, wordAt_of_drop (k := 12) (v := d.blank) rfl, one 16 d.count rfl,
    one 17 d.orient rfl, addr 18 d.apBase rfl, addr 23 d.base0 rfl, addr 28 d.base1 rfl, addr 33 d.base2 rfl,
    addr 38 d.base3 rfl, half 43 d.bandTop rfl, half 45 d.bandRows rfl, half 47 d.scroll rfl, half 49 d.visTop rfl,
    half 51 d.visBottom rfl, half 53 d.xs rfl, half 55 d.xe rfl, half 57 d.ys rfl, half 59 d.ye rfl, one 61 d.order rfl,
    one 62 d.present rfl, one 63 d.minShow rfl, one 64 d.flags rfl, one 65 d.holdLimit rfl]

theorem eq_map_byteAt (l : List Byte) : l = (List.range l.length).map (byteAt l) := by
  refine List.ext_getElem (by simp) fun k h1 h2 => ?_
  simp [byteAt, h1]

theorem Descriptor.block_ofBlock {p : List Byte} {i : Fin 8} (hp : p.length = 66) (hi : surfaceNumber p = some i) :
    (Descriptor.ofBlock p).block i = p := by
  have h0 : BitVec.ofNat 8 i.val = byteAt p 0 := by
    unfold surfaceNumber at hi
    split at hi
    · obtain rfl := Option.some.inj hi
      simp
    · cases hi
  have hl := eq_map_byteAt p
  rw [hp] at hl
  refine Eq.trans ?_ hl.symm
  rw [Descriptor.block_eq]
  simp only [Descriptor.fields, Descriptor.ofBlock, halfBytes_halfAt, wordBytes_wordAt, addrBytes_addrAt, h0]
  rfl

/-- Settles O13. -/
theorem descriptorBlockRoundTrip : Obligations.DescriptorBlockRoundTrip := by
  refine ⟨fun d i => ?fields, fun d i => ⟨by rw [Descriptor.block_eq]; rfl, d.ofBlock_block i⟩, fun p i hp hi => Descriptor.block_ofBlock hp hi⟩
  rw [Descriptor.block_eq]
  have number : (BitVec.ofNat 8 i.val).toNat = i.val := by
    rw [BitVec.toNat_ofNat]
    have := i.isLt
    omega
  have one : ∀ {rest : List Byte} (k : Nat) (v : Byte), (d.fields i).drop k = v :: rest →
      ((List.range 1).map (fun j => (byteAt (d.fields i) (k + j)).toNat * 256 ^ j)).sum = v.toNat := by
    intro rest k v h
    rw [sum_field, ← byteAt_of_drop h rfl]
    rfl
  have two : ∀ {rest : List Byte} (k : Nat) (v : Half), (d.fields i).drop k = halfBytes v ++ rest →
      ((List.range 2).map (fun j => (byteAt (d.fields i) (k + j)).toNat * 256 ^ j)).sum = v.toNat := by
    intro rest k v h
    rw [sum_field, ← halfAt_of_drop h, halfAt_toNat]
    rfl
  have five : ∀ {rest : List Byte} (k : Nat) (v : Addr), (d.fields i).drop k = addrBytes v ++ rest →
      ((List.range 5).map (fun j => (byteAt (d.fields i) (k + j)).toNat * 256 ^ j)).sum = v.toNat := by
    intro rest k v h
    rw [sum_field, ← addrAt_of_drop h, addrAt_toNat]
    rfl
  have blank : ((List.range 4).map (fun j => (byteAt (d.fields i) (12 + j)).toNat * 256 ^ j)).sum = d.blank.toNat := by
    rw [sum_field, ← wordAt_of_drop (l := d.fields i) (k := 12) (v := d.blank) rfl, wordAt_toNat]
    rfl
  exact ⟨(one 0 _ rfl).trans number, one 1 _ rfl, one 2 _ rfl, one 3 _ rfl, one 4 _ rfl, one 5 _ rfl, two 6 _ rfl, two 8 _ rfl,
    two 10 _ rfl, blank, one 16 _ rfl, one 17 _ rfl, five 18 _ rfl, five 23 _ rfl, five 28 _ rfl, five 33 _ rfl, five 38 _ rfl,
    two 43 _ rfl, two 45 _ rfl, two 47 _ rfl, two 49 _ rfl, two 51 _ rfl, two 53 _ rfl, two 55 _ rfl, two 57 _ rfl, two 59 _ rfl,
    one 61 _ rfl, one 62 _ rfl, one 63 _ rfl, one 64 _ rfl, one 65 _ rfl⟩

end Sys2Proof.Machine

/-! # Conversions, the order of the classes, and the checks of ATTACH -/

namespace Sys2Proof.Machine

set_option Elab.async false

theorem mem_allSurfaces (i : Fin 8) : i ∈ allSurfaces := by
  revert i
  decide

/-! ## Conversion (R56 to R60) -/

/-- Under the default tables the top bits of an expanded channel value are the value. -/
theorem entry32_reset (v : BitVec 5) :
    (entry32 Tables.reset.blue v).extractLsb' 3 5 = v ∧ (entry32 Tables.reset.red v).extractLsb' 3 5 = v := by
  revert v
  decide +kernel

theorem entry64_reset (v : BitVec 6) : (entry64 Tables.reset.green v).extractLsb' 2 6 = v := by
  revert v
  decide +kernel

/-- A word is put together again from its three channels. -/
theorem halfAt_channels (w : Half) :
    ((w.extractLsb' 11 5 ++ w.extractLsb' 5 6 : BitVec 11) ++ w.extractLsb' 0 5 : BitVec 16) = w := by
  have := w.isLt
  refine BitVec.eq_of_toNat_eq ?_
  simp only [append_toNat, extract_toNat]
  omega

theorem packWord_toNat (b g r : Byte) : (packWord b g r).toNat = b.toNat / 8 + 32 * (g.toNat / 4) + 2048 * (r.toNat / 8) := by
  have := b.isLt
  have := g.isLt
  have := r.isLt
  simp only [packWord, append_toNat, extract_toNat]
  omega

theorem halfBytes_eq (v : Half) : halfBytes v = [BitVec.ofNat 8 (v.toNat % 256), BitVec.ofNat 8 (v.toNat / 256)] := by
  have := v.isLt
  refine littleEndian_injective rfl ?_
  rw [littleEndian_halfBytes]
  simp only [littleEndian, BitVec.toNat_ofNat]
  omega

theorem extract_toFin {n k : Nat} (v : BitVec n) (s : Nat) (m : Nat) [NeZero (2 ^ k)] (h : v.toNat / 2 ^ s % 2 ^ k = m % 2 ^ k) :
    (v.extractLsb' s k).toFin = Fin.ofNat (2 ^ k) m := Fin.ext (by rw [BitVec.val_toFin, extract_toNat, h]; rfl)

/-- Settles O18. -/
theorem conversionRoundTrip : Obligations.ConversionRoundTrip := by
  refine ⟨fun t d px => ?forward, fun d st => ?reverse, fun t d px hn hf => ?roundTrip⟩
  case forward =>
    have hw : (halfAt px 0).toNat = (byteAt px 0).toNat + 256 * (byteAt px 1).toNat := by
      simp only [halfAt_toNat, littleEndian, Nat.zero_add]
      omega
    refine ⟨fun h e he => ?_, fun h => ?_, fun h => ?_, fun h => ?_⟩
    · have hb : (byteAt px 0).toFin = Fin.ofNat 256 (byteAt px 0).toNat := Fin.ext (Nat.mod_eq_of_lt (byteAt px 0).isLt).symm
      rcases he with ⟨hp, rfl⟩ | ⟨hp, rfl⟩ <;> simp [forward, Descriptor.fmt, h, hp, paletteEntry, hb]
    · have := (byteAt px 0).isLt
      have := (byteAt px 1).isLt
      simp only [forward, Descriptor.fmt, h, entry32, entry64]
      rw [extract_toFin (k := 5) (halfAt px 0) 0 _ (by rw [hw, Nat.pow_zero, Nat.div_one, Nat.mod_mod]),
        extract_toFin (k := 6) (halfAt px 0) 5 _ (by rw [hw, Nat.mod_mod]),
        extract_toFin (k := 5) (halfAt px 0) 11 _ (by rw [hw])]
      rfl
    · simp [forward, Descriptor.fmt, h]
    · simp [forward, Descriptor.fmt, h]
  case reverse =>
    refine ⟨fun h => ?_, fun h => ?_, fun h => ?_⟩
    · simp [reverse, Descriptor.fmt, h, halfBytes_eq, packWord_toNat]
    · simp [reverse, Descriptor.fmt, h]
    · simp [reverse, Descriptor.fmt, h]
  case roundTrip =>
    have hpx := eq_map_byteAt px
    rcases hf with h | h | ⟨h, rfl⟩ <;> rw [hn, Descriptor.bpp, h] at hpx <;>
      refine Eq.trans ?_ hpx.symm <;> simp only [reverse, forward, h]
    · rfl
    · rfl
    · obtain ⟨hb, -⟩ := entry32_reset ((halfAt px 0).extractLsb' 0 5)
      obtain ⟨-, hr⟩ := entry32_reset ((halfAt px 0).extractLsb' 11 5)
      have hg := entry64_reset ((halfAt px 0).extractLsb' 5 6)
      have hword := halfAt_channels (halfAt px 0)
      refine Eq.trans (congrArg halfBytes ?_) (halfBytes_halfAt px 0)
      refine Eq.trans ?_ hword
      simp only [packWord]
      exact congrArg₂ _ (congrArg₂ _ hr hg) hb

/-! ## The arbiter (R157) -/

theorem mem_mergeClaims {f : Fabric} {n : Nat} {c : Claim} :
    (n, c) ∈ f.mergeClaims ↔ ∃ i m, (f.surf i).mergeClaim = some m ∧ n = m.presented.getD f.nextStamp ∧ c = .merge i := by
  simp only [Fabric.mergeClaims, List.mem_filterMap, Option.map_eq_some_iff, Prod.mk.injEq]
  refine ⟨fun ⟨i, _, m, hm, hn, hc⟩ => ⟨i, m, hm, hn.symm, hc.symm⟩, fun ⟨i, m, hm, hn, hc⟩ => ⟨i, ?_, m, hm, hn.symm, hc.symm⟩⟩
  exact mem_allSurfaces i

/-- Settles O51: the arbiter's cases in their order. -/
theorem grantOrder : Obligations.GrantOrder := by
  intro s
  refine ⟨fun hf hs => ?scanout, fun hf hs => ?reserve, fun hf hs => ?others⟩
  case scanout => simp [State.bestClaim, hf, Option.isSome_iff_ne_none.mpr hs]
  case reserve =>
    unfold State.bestClaim
    split
    · rfl
    · simp [hs, hf]
  case others =>
    have h0 : s.freeTags ≠ 0 := by omega
    have h4 : ¬ s.freeTags ≤ 4 := by omega
    have hb : s.bestClaim = match earliest s.fab.mergeClaims with
        | some c => some c.2
        | none =>
          if s.fab.copyChunk.isSome = true ∧ s.copyIssued < 2 then some .copy
          else
            match earliest s.fab.intakeClaims with
            | some c => some c.2
            | none => if s.fab.copyChunk.isSome = true ∧ s.copyIssued < 4 then some .copy else none := by
      unfold State.bestClaim
      simp only [hs, Option.isSome_none, Bool.false_eq_true]
      simp only [h0, h4, if_false] <;> rfl
    refine ⟨fun ⟨k, hk⟩ => ?merge, fun hm => ?_⟩
    case merge =>
      obtain ⟨q, hq⟩ := Option.ne_none_iff_exists'.mp hk
      cases he : earliest s.fab.mergeClaims with
      | none =>
        have := mem_mergeClaims.mpr ⟨k, q, hq, rfl, rfl⟩
        rw [earliest_none.mp he] at this
        cases this
      | some c =>
        obtain ⟨hmem, hle⟩ := earliest_some he
        obtain ⟨i, m, hi, hn, hc⟩ := mem_mergeClaims.mp hmem
        refine ⟨i, m, by rw [hb, he, ← hc], hi, fun k q hk => ?_⟩
        exact hn ▸ hle _ (mem_mergeClaims.mpr ⟨k, q, hk, rfl, rfl⟩)
    case _ =>
      have he : earliest s.fab.mergeClaims = none := by
        refine earliest_none.mpr (List.eq_nil_iff_forall_not_mem.mpr fun c hc => ?_)
        obtain ⟨i, m, hi, -⟩ := mem_mergeClaims.mp (show (c.1, c.2) ∈ _ from hc)
        cases (hm i).symm.trans hi
      rw [he] at hb
      refine ⟨fun hc h2 => by simp [hb, Option.isSome_iff_ne_none.mpr hc, h2], fun hc => ?_⟩
      have h2 : ¬ (s.fab.copyChunk.isSome = true ∧ s.copyIssued < 2) := by
        rintro ⟨h1, h2⟩
        rcases hc with hc | hc
        · simp [hc] at h1
        · omega
      simp only [h2, if_false] at hb
      refine ⟨fun hi => ?_, fun hi => ?_⟩
      · cases hn : earliest s.fab.intakeClaims with
        | none => exact absurd (earliest_none.mp hn) hi
        | some c =>
          obtain ⟨hmem, hle⟩ := earliest_some hn
          exact ⟨c.1, c.2, by rw [hb, hn], hmem, hle⟩
      · rw [earliest_none.mpr hi] at hb
        refine ⟨fun hc h4 => by simp [hb, Option.isSome_iff_ne_none.mpr hc, h4], fun hc => ?_⟩
        rw [hb]
        refine if_neg ?_
        rintro ⟨h1, h2⟩
        rcases hc with hc | hc
        · simp [hc] at h1
        · omega

/-! ## The checks of ATTACH (R28 to R30) -/

/-- Check `n` of surface `i`. -/
def Fabric.check (f : Fabric) (i : Fin 8) : Nat → Bool
  | 1 => (f.surf i).desc.check1
  | 2 => (f.surf i).desc.check2
  | 3 => (f.surf i).desc.check3
  | 4 => (f.surf i).desc.check4
  | 5 => (f.surf i).desc.check5
  | 6 => (f.surf i).desc.check6
  | 7 => f.check7 i
  | 8 => f.check8 i
  | _ => true

theorem regionSize_eq (d : Descriptor) : d.regionSize = 64 * d.pitch.toNat * d.height.toNat := by
  simp [Descriptor.regionSize, Descriptor.pitchBytes, Descriptor.h, Nat.mul_comm 64]

theorem apSize_eq (d : Descriptor) : d.apSize = (64 * d.pitch.toNat * d.height.toNat + 4095) / 4096 * 4096 := by
  rw [Descriptor.apSize, regionSize_eq]

theorem spansMeet_eq_false {a an b bn : Nat} : spansMeet a an b bn = false ↔ a + an ≤ b ∨ b + bn ≤ a := by
  simp only [spansMeet, Bool.and_eq_false_iff, decide_eq_false_iff_not]
  omega

theorem check3_iff {d : Descriptor} : d.check3 = true ↔ ∀ k, k < d.count.toNat →
    (d.baseOf k).toNat % 4096 = 0 ∧ (d.baseOf k).toNat + d.regionSize ≤ 2 ^ 40 := by
  simp only [Descriptor.check3, Descriptor.bufferIndexes, aligned4096, Descriptor.regionStart, List.all_eq_true, List.mem_range,
    Bool.and_eq_true, beq_iff_eq]
  exact forall_congr' fun k => imp_congr_right fun _ => and_congr_right fun _ => decide_eq_true_iff

theorem check4_iff {d : Descriptor} : d.check4 = true ↔ ∀ l, l < d.count.toNat → ∀ k, k < l →
    (d.baseOf k).toNat + d.regionSize ≤ (d.baseOf l).toNat ∨ (d.baseOf l).toNat + d.regionSize ≤ (d.baseOf k).toNat := by
  simp only [Descriptor.check4, Descriptor.bufferIndexes, List.all_eq_true, List.mem_range, Bool.or_eq_true, beq_iff_eq,
    Bool.not_eq_true', spansMeet_eq_false, Descriptor.regionStart]
  refine ⟨fun h l hl k hk => (h k (by omega) l hl).resolve_left (by omega), fun h k hk l hl => ?_⟩
  rcases Nat.lt_trichotomy k l with hlt | heq | hgt
  · exact Or.inr (h l hl k hlt)
  · exact Or.inl heq
  · exact Or.inr (h k hk l hgt).symm

theorem check5_iff {d : Descriptor} : d.check5 = true ↔
    d.bandTop.toNat < d.height.toNat ∧ d.bandTop.toNat + d.bandRows.toNat ≤ d.height.toNat ∧
      (if d.bandRows.toNat = 0 then d.scroll.toNat = 0 else d.scroll.toNat < d.bandRows.toNat) ∧
      d.visTop.toNat ≤ d.visBottom.toNat ∧ d.visBottom.toNat < d.height.toNat := by
  have zero : ∀ v : Half, v = 0 ↔ v.toNat = 0 := fun v =>
    ⟨fun h => by rw [h]; rfl, fun h => BitVec.eq_of_toNat_eq h⟩
  have hs : d.scrollInRange d.scroll = true ↔
      (if d.bandRows.toNat = 0 then d.scroll.toNat = 0 else d.scroll.toNat < d.bandRows.toNat) := by
    unfold Descriptor.scrollInRange
    by_cases hb : d.bandRows.toNat = 0
    · rw [if_pos ((zero _).mpr hb), if_pos hb, beq_iff_eq, zero]
    · rw [if_neg (mt (zero _).mp hb), if_neg hb, decide_eq_true_eq]
  simp only [Descriptor.check5, Descriptor.visibleInRange, Bool.and_eq_true, decide_eq_true_eq, hs, and_assoc]
  rfl

theorem check6_iff {d : Descriptor} : d.check6 = true ↔ (d.mode.toNat = 1 →
    d.xs.toNat ≤ d.xe.toNat ∧ d.xe.toNat < (if d.orient.getLsbD 0 then d.height.toNat else d.width.toNat) ∧
      d.ys.toNat ≤ d.ye.toNat ∧ d.ye.toNat < (if d.orient.getLsbD 0 then d.width.toNat else d.height.toNat) ∧
      d.order.toNat ≤ 1) := by
  have one : d.isStream = true ↔ d.mode.toNat = 1 := by
    rw [Descriptor.isStream_iff]
    exact ⟨fun h => by rw [h]; rfl, fun h => BitVec.eq_of_toNat_eq h⟩
  rw [Descriptor.check6, Bool.or_eq_true, Bool.not_eq_true', ← Bool.not_eq_true, one, ← imp_iff_not_or]
  simp [Descriptor.windowInRange, Descriptor.lwOf, Descriptor.lhOf, orientOf, Descriptor.w, Descriptor.h, and_assoc]

theorem mem_liveOthers {f : Fabric} {i k : Fin 8} :
    k ∈ f.liveOthers i ↔ k ≠ i ∧ ((f.surf k).life = .attached ∨ (f.surf k).life = .detaching) := by
  simp [Fabric.liveOthers, mem_allSurfaces, Lifecycle.live_iff]

/-- The model's checks are those of the statements. -/
theorem Fabric.check_iff (f : Fabric) (i : Fin 8) (n : Nat) : f.check i n = true ↔ f.Passes i n := by
  match n with
  | 0 => exact iff_of_true rfl trivial
  | 1 =>
    simp only [Fabric.check, Fabric.Passes, Descriptor.check1, Bool.and_eq_true, decide_eq_true_eq, aligned4096, beq_iff_eq,
      apSize_eq, and_assoc]
    have h7 : ∀ x : Nat, x < 8 ↔ x ≤ 7 := by omega
    rw [h7, h7]
    rfl
  | 2 =>
    simp only [Fabric.check, Fabric.Passes, Descriptor.check2, decide_eq_true_eq, Nat.mul_comm 64]
    rfl
  | 3 =>
    simp only [Fabric.check, Fabric.Passes, check3_iff, regionSize_eq]
    rfl
  | 4 => simp only [Fabric.check, Fabric.Passes, check4_iff, regionSize_eq]
  | 5 => exact check5_iff
  | 6 => exact check6_iff
  | 7 =>
    simp only [Fabric.check, Fabric.Passes, Fabric.check7, List.all_eq_true, mem_liveOthers, and_imp, Bool.not_eq_true',
      spansMeet_eq_false, Descriptor.apStart, apSize_eq]
  | 8 =>
    simp only [Fabric.check, Fabric.Passes, Fabric.check8, List.all_eq_true, mem_liveOthers, and_imp, Bool.not_eq_true',
      spansMeet_eq_false, Descriptor.regionStart, regionSize_eq, Descriptor.bufferIndexes, List.mem_range]
  | n + 9 => exact iff_of_true rfl trivial

/-- The checks are made in order. -/
theorem Fabric.failedCheck_some {f : Fabric} {i : Fin 8} {n : Nat} (h1 : 1 ≤ n) (h8 : n ≤ 8) (hn : f.check i n = false)
    (hlt : ∀ m, 1 ≤ m → m < n → f.check i m = true) : f.failedCheck i = some n := by
  unfold Fabric.failedCheck
  simp only [show (f.surf i).desc.check1 = f.check i 1 from rfl, show (f.surf i).desc.check2 = f.check i 2 from rfl,
    show (f.surf i).desc.check3 = f.check i 3 from rfl, show (f.surf i).desc.check4 = f.check i 4 from rfl,
    show (f.surf i).desc.check5 = f.check i 5 from rfl, show (f.surf i).desc.check6 = f.check i 6 from rfl,
    show f.check7 i = f.check i 7 from rfl, show f.check8 i = f.check i 8 from rfl]
  interval_cases n <;> simp [hn, hlt]

theorem Fabric.failedCheck_none {f : Fabric} {i : Fin 8} :
    f.failedCheck i = none ↔ ∀ n, 1 ≤ n → n ≤ 8 → f.check i n = true := by
  refine ⟨fun h n h1 h8 => ?_, fun h => ?_⟩
  · induction n using Nat.strong_induction_on with
    | _ n ih =>
      by_contra hn
      have := Fabric.failedCheck_some h1 h8 (Bool.eq_false_iff.mpr hn) fun m hm hlt => ih m hlt hm (by omega)
      rw [h] at this
      cases this
  · cases hf : f.failedCheck i with
    | none => rfl
    | some n =>
      have c1 := h 1 (by omega) (by omega)
      have c2 := h 2 (by omega) (by omega)
      have c3 := h 3 (by omega) (by omega)
      have c4 := h 4 (by omega) (by omega)
      have c5 := h 5 (by omega) (by omega)
      have c6 := h 6 (by omega) (by omega)
      have c7 := h 7 (by omega) (by omega)
      have c8 := h 8 (by omega) (by omega)
      simp only [Fabric.check] at c1 c2 c3 c4 c5 c6 c7 c8
      simp [Fabric.failedCheck, c1, c2, c3, c4, c5, c6, c7, c8] at hf

theorem exec_attach {s : State} {i : Fin 8} {p : Byte} (ht : s.Takes 0x12 [p]) (hd : s.device = .running) (hp : p.toNat = i.val)
    (hl : (s.surf i).life = .defined) :
    exec (.attach [p]) s = .next (State.answer (match s.fab.failedCheck i with
      | some n => (s, { status := if n ≤ 6 then .badValue else .conflict, data := [BitVec.ofNat 8 n] })
      | none => (s.modSurf i Surface.attached).finish.done)) := by
  rw [show exec (.attach [p]) s = _ from exec_row_running (c := .attach) ht rfl hd]
  simp only [Command.apply, applyAttach, State.named_of_eq s (show (byteAt [p] 0).toNat = i.val from hp), hl,
    if_true] <;> rfl

/-- Settles O26. -/
theorem attachReportsCheck : Obligations.AttachReportsCheck := by
  intro s i p ht hd hp hl
  refine ⟨fun n h1 h8 hn hlt => ?_, ?_⟩
  · rw [exec_attach ht hd hp hl, Fabric.failedCheck_some h1 h8 (Bool.eq_false_iff.mpr (mt (s.fab.check_iff i n).mp hn))
      fun m hm hlt' => (s.fab.check_iff i m).mpr (hlt m hm hlt')]
    rfl
  · rw [Fabric.failedCheck_none]
    exact forall_congr' fun n => imp_congr_right fun _ => imp_congr_right fun _ => s.fab.check_iff i n

end Sys2Proof.Machine

/-! # A part at rest with one surface changed -/

namespace Sys2Proof.Machine

set_option Elab.async false

/-! ## What rests -/

theorem Fabric.rests_iff {f : Fabric} : f.rests = true ↔
    f.offered = [] ∧ (∀ k, f.surfaceRests k = true) ∧ f.scansRest = true ∧ f.engineRests = true := by
  simp only [Fabric.rests, Fabric.still, Bool.and_eq_true, decide_eq_true_eq, List.all_eq_true, and_assoc]
  exact and_congr_right fun _ => and_congr_left fun _ => ⟨fun h k => h k (mem_allSurfaces k), fun h k _ => h k⟩

/-- Whether a surface rests depends on the surface and on the jobs that target its buffers. -/
theorem Fabric.surfaceRests_congr {f g : Fabric} {k : Fin 8} (hs : g.surf k = f.surf k) (hj : ∀ b, g.jobOf k b = f.jobOf k b) :
    g.surfaceRests k = f.surfaceRests k := by
  have ready : g.headReady k = f.headReady k := by
    funext m
    simp only [Fabric.headReady, Fabric.stripesDone, hs, hj]
  simp only [Fabric.surfaceRests, Fabric.headRests, hs, ready]

theorem Fabric.jobOf_eq_queue_or (f : Fabric) (k : Fin 8) (b : Nat) :
    f.jobOf k b = (f.copy.queue.find? (fun j => j.isFor k b)).or ((f.surf k).deferred.find? (fun j => j.isFor k b)) := by
  rw [Fabric.jobOf, List.find?_append]

/-- The jobs of a surface stand in its part of the copy queue and in its deferred list. -/
theorem Fabric.jobOf_congr {f g : Fabric} {k : Fin 8}
    (hq : g.copy.queue.filter (fun j => decide (j.surface = k)) = f.copy.queue.filter (fun j => decide (j.surface = k)))
    (hd : (g.surf k).deferred = (f.surf k).deferred) (b : Nat) : g.jobOf k b = f.jobOf k b := by
  have part : ∀ l : List CopyJob, l.find? (fun j => j.isFor k b) =
      (l.filter (fun j => decide (j.surface = k))).find? (fun j => j.isFor k b) := by
    intro l
    rw [List.find?_filter]
    congr 1
    funext j
    simp [CopyJob.isFor]
  rw [Fabric.jobOf_eq_queue_or, Fabric.jobOf_eq_queue_or, hd, part g.copy.queue, part f.copy.queue, hq]

theorem Fabric.jobOf_modSurf (f : Fabric) (i k : Fin 8) (b : Nat) {g : Surface → Surface}
    (hd : (g (f.surf i)).deferred = (f.surf i).deferred) : (f.modSurf i g).jobOf k b = f.jobOf k b := by
  refine Fabric.jobOf_congr (f := f) (g := f.modSurf i g) rfl ?_ b
  rw [Fabric.surf_modSurf]
  split
  case isTrue h => exact h ▸ hd
  case isFalse => rfl

/-- Whether the engine rests depends on the copy engine and on which sources are CLOSING. -/
theorem Fabric.engineRests_congr {f g : Fabric} (hc : g.copy = f.copy)
    (hs : ∀ j ∈ f.copy.queue, g.startable j = f.startable j) : g.engineRests = f.engineRests := by
  simp only [Fabric.engineRests, hc]
  cases f.copy.current with
  | some c => rfl
  | none =>
    refine Bool.eq_iff_iff.mpr ?_
    simp only [List.all_eq_true]
    exact forall_congr' fun j => forall_congr' fun hj => by rw [hs j hj]

/-- A part at rest of which one surface changes: it rests if that surface does and its jobs' sources are CLOSING as before. -/
theorem Fabric.rests_modSurf {f : Fabric} {i : Fin 8} {g : Surface → Surface} (hr : f.rests = true)
    (hi : (f.modSurf i g).surfaceRests i = true)
    (hc : ∀ j ∈ f.copy.queue, j.surface = i →
      (((g (f.surf i)).buf j.source).st = .closing ↔ ((f.surf i).buf j.source).st = .closing)) :
    (f.modSurf i g).rests = true := by
  obtain ⟨ho, hs, hq, he⟩ := Fabric.rests_iff.mp hr
  refine Fabric.rests_iff.mpr ⟨ho, fun k => ?_, hq, ?_⟩
  · by_cases hk : i = k
    · exact hk ▸ hi
    · rw [Fabric.surfaceRests_congr (f.surf_modSurf_other g hk) fun b =>
        Fabric.jobOf_congr (f := f) (g := f.modSurf i g) rfl (congrArg _ (f.surf_modSurf_other g hk)) b]
      exact hs k
  · rw [Fabric.engineRests_congr (f := f) (g := f.modSurf i g) rfl ?_, he]
    intro j hj
    simp only [Fabric.startable]
    by_cases hk : i = j.surface
    · rw [← hk, Fabric.surf_modSurf_same]
      exact decide_eq_decide.mpr (not_congr (hc j hj hk.symm))
    · rw [f.surf_modSurf_other g hk]

/-- A surface rests with an empty lane, or none of its own, and no merge claim. -/
theorem Fabric.surfaceRests_of_idle {f : Fabric} {i : Fin 8} (hl : (f.surf i).lane = [] ∨ (f.surf i).life ≠ .attached)
    (hm : (f.surf i).mergeClaim = none) : f.surfaceRests i = true := by
  simp only [Fabric.surfaceRests, hm, Bool.and_true, Bool.or_eq_true, decide_eq_true_eq]
  exact Or.inl hl

/-! ## ATTACH that succeeds (R31) -/

/-- Settles O27. -/
theorem attachStarts : Obligations.AttachStarts := by
  intro s i p ht hd hp hr hq hl hc
  have hn : s.fab.failedCheck i = none :=
    Fabric.failedCheck_none.mpr fun n h1 h8 => (s.fab.check_iff i n).mpr (hc n h1 h8)
  have hsurf : (s.modSurf i Surface.attached).surf i = (s.surf i).attached := s.surf_modSurf_same i _
  have hrest : (s.modSurf i Surface.attached).AtRest := by
    refine Fabric.rests_modSurf hr (Fabric.surfaceRests_of_idle ?_ ?_) fun j hj hi => absurd hi (hq j hj)
    · rw [Fabric.surf_modSurf_same]
      exact Or.inl rfl
    · rw [Fabric.surf_modSurf_same]
      rfl
  refine ⟨(s.modSurf i Surface.attached).replied .ok [], ?_, ?_, ?_⟩
  · rw [exec_attach ht hd hp hl, hn]
    simp only [State.finish_of_rest _ hrest, State.answer_done]
  · refine congrArg (fun t : State => t.replied .ok []) ?_
    unfold State.modSurf
    exact congrArg (fun f : Fabric => ({ s with fab := f } : State)) (Fabric.modSurf_congr _ _ hsurf.symm)
  · rw [show ((s.modSurf i Surface.attached).replied .ok []).surf i = (s.surf i).attached from hsurf]
    refine ⟨rfl, rfl, by simp [Surface.attached, Descriptor.bufferIndexes], fun b hb => ?_, rfl, rfl, rfl, rfl, rfl, rfl, rfl,
      rfl, rfl, rfl, rfl, rfl, rfl, rfl⟩
    simp [Surface.attached, Descriptor.bufferIndexes, hb]

/-! ## CLOSE without a FILLING buffer, and behind a bound head (R102) -/

theorem exec_close {s : State} {i : Fin 8} {p : Byte} (ht : s.Takes 0x30 [p]) (hd : s.device = .running) (hp : p.toNat = i.val)
    (hl : (s.surf i).life = .attached) :
    exec (.close [p]) s = .next (State.answer (if (s.surf i).filling.isSome then
      (s.onFabric (fun env f => f.closeTrigger env i)).finish.done else s.failed .noFrame)) := by
  rw [show exec (.close [p]) s = _ from exec_row_running (c := .close) ht rfl hd]
  simp only [Command.apply, applyCloseCommand, State.onAttached_of_eq s (show (byteAt [p] 0).toNat = i.val from hp) hl]

/-- Settles O33. -/
theorem closeAnswered : Obligations.CloseAnswered := by
  intro s i p ht hd hp hl
  refine ⟨fun hf => ?_, fun hr ⟨r, hr', hst⟩ hlane ⟨bd, hb⟩ => ?_⟩
  · rw [exec_close ht hd hp hl, Surface.filling_none.mpr hf]
    rfl
  · obtain ⟨b, hf⟩ : ∃ b, (s.surf i).filling = some b :=
      Option.ne_none_iff_exists'.mp fun h => Surface.filling_none.mp h r hr' hst
    have ht' : s.fab.closeTrigger s.env i = s.fab.modSurf i (fun su => { su with closePending := true }) := by
      unfold Fabric.closeTrigger
      rw [show (s.fab.surf i).filling = some b from hf]
      exact if_pos (Surface.headBound_iff.mpr ⟨bd, hb⟩)
    have hrest : (s.modSurf i (fun su => { su with closePending := true })).AtRest := by
      refine Fabric.rests_modSurf hr ?_ fun _ _ _ => Iff.rfl
      refine Eq.trans ?_ ((Fabric.rests_iff.mp hr).2.1 i)
      have hsu := s.fab.surf_modSurf_same i (fun su => { su with closePending := true })
      simp only [Fabric.surfaceRests, Fabric.headRests, hsu, Surface.mergeOutstanding, Surface.mergeClaim,
        Surface.firstOutstanding, show (s.fab.surf i).head = .bound bd from hb]
    rw [exec_close ht hd hp hl, hf]
    simp only [Option.isSome_some, if_true]
    rw [show s.onFabric (fun env f => f.closeTrigger env i) = s.modSurf i (fun su => { su with closePending := true }) from
      congrArg (fun f : Fabric => ({ s with fab := f } : State)) ht', State.finish_of_rest _ hrest, State.answer_done]

/-! ## A late response (R163) -/

/-- Settles O56. -/
theorem lateResponseDiscarded : Obligations.LateResponseDiscarded := by
  intro s k code data hr hq
  have hrest : (s.takeLate k).AtRest :=
    (Fabric.rests_congr (f := (s.takeLate k).fab) (g := s.fab) rfl rfl rfl rfl).trans hr
  change (Host.Outcome.next (s.respond k code data) : Host.Outcome State Fault Refusal) = _
  simp only [State.respond, hq, State.finish_of_rest _ hrest]
  rfl

end Sys2Proof.Machine

/-! # Requests accepted, refused, or held back on the link -/

namespace Sys2Proof.Machine

set_option Elab.async false

/-! ## A request offered to a part at rest (R6) -/

theorem Fabric.offer_of_none {f : Fabric} (h : f.offered = []) (r : UpRequest) : f.offer r = { f with offered := [r] } := by
  rw [Fabric.offer, h]
  rfl

/-- A part at rest that is offered a request accepts it and settles, or leaves it on the link. -/
theorem Fabric.finish_offer {f : Fabric} (env : Env) (r : UpRequest) (hr : f.rests = true) :
    (f.offer r).finish env =
      if f.mayAccept env r = true then { (({ f with offered := [r] } : Fabric).accept env r).settle env with offered := [] }
      else { f with offered := [r] } := by
  have ho := (Fabric.rests_iff.mp hr).1
  have hs : (f.offer r).still = true :=
    (Fabric.still_congr (f := f.offer r) (g := f) rfl rfl rfl).trans (Bool.and_eq_true_iff.mp hr).2
  unfold Fabric.finish
  rw [Fabric.settle_of_still _ env hs, Fabric.offer_of_none ho]
  simp only [Fabric.pump]
  rfl

theorem exec_upstreamRequest_of_rest {s : State} (r : UpRequest) (hr : s.AtRest) :
    exec (.upstreamRequest r) s = .next { s with
      fab := (if s.fab.mayAccept s.env r = true then
          { (({ s.fab with offered := [r] } : Fabric).accept s.env r).settle s.env with offered := [] }
        else { s.fab with offered := [r] }) } :=
  congrArg (fun f : Fabric => Host.Outcome.next ({ s with fab := f } : State)) (Fabric.finish_offer s.env r hr)

/-- A request that may be accepted without anything for the part to do at once afterwards. -/
theorem exec_upstreamRequest_of_still {s : State} {r : UpRequest} {f : Fabric} (hr : s.AtRest)
    (hm : s.fab.mayAccept s.env r = true) (ha : ({ s.fab with offered := [r] } : Fabric).accept s.env r = { f with offered := [r] })
    (hf : f.rests = true) : exec (.upstreamRequest r) s = .next { s with fab := f } := by
  have hs : ({ f with offered := [r] } : Fabric).still = true :=
    (Fabric.still_congr (f := { f with offered := [r] }) (g := f) rfl rfl rfl).trans (Bool.and_eq_true_iff.mp hf).2
  rw [exec_upstreamRequest_of_rest r hr, if_pos hm, ha, Fabric.settle_of_still _ _ hs]
  have ho := (Fabric.rests_iff.mp hf).1
  rw [← ho]

theorem State.env_running {s : State} (hd : s.device = .running) : s.env.running = true := decide_eq_true hd

/-- In RUNNING the intake accepts every request but those that find their queue full. -/
theorem Fabric.mayAccept_of_running {f : Fabric} {env : Env} {r : UpRequest} (he : env.running = true)
    (hp : f.classify env r = .passThrough → f.passQ.length < 16) (hs : ∀ i, f.classify env r = .scanout i → f.scanQ.length < 8) :
    f.mayAccept env r = true := by
  rw [Fabric.mayAccept, he, Bool.true_and]
  cases hc : f.classify env r with
  | passThrough => exact decide_eq_true (hp hc)
  | scanout i => exact decide_eq_true (hs i hc)
  | _ => rfl

/-! ## A pass-through request (R10) -/

theorem passParts_eq (r : UpRequest) : passParts r =
    if r.addr.toNat % 4096 + r.len ≤ 4096 then [{ addr := r.addr.toNat, len := r.len, pos := 0 }]
    else [{ addr := r.addr.toNat, len := 4096 - r.addr.toNat % 4096, pos := 0 },
      { addr := r.addr.toNat + (4096 - r.addr.toNat % 4096), len := r.len - (4096 - r.addr.toNat % 4096),
        pos := 4096 - r.addr.toNat % 4096 }] := by
  unfold passParts
  have : r.len ≤ 4096 - r.addr.toNat % 4096 ↔ r.addr.toNat % 4096 + r.len ≤ 4096 := by omega
  by_cases h : r.addr.toNat % 4096 + r.len ≤ 4096
  · simp [h, this.mpr h]
  · simp [h, mt this.mp h]

theorem emptyArea_eq (r : UpRequest) : emptyArea r = if r.kind = .read then List.replicate r.len 0 else [] := by
  unfold emptyArea
  cases r.kind <;> rfl

/-- Settles O45. -/
theorem passThroughAccepted : Obligations.PassThroughAccepted := by
  intro s r hr hc
  by_cases h : s.device = .running ∧ s.fab.passQ.length < 16
  · obtain ⟨hd, hq⟩ := h
    rw [if_pos ⟨hd, hq⟩]
    refine exec_upstreamRequest_of_still hr ?_ ?_ ?_
    · exact Fabric.mayAccept_of_running (State.env_running hd) (fun _ => hq) fun i hi => by simp [hc] at hi
    · rw [Fabric.accept, show ({ s.fab with offered := [r] } : Fabric).classify s.env r = .passThrough from hc, ← passParts_eq,
        ← emptyArea_eq]
      rfl
    · exact (Fabric.rests_congr (g := s.fab) rfl rfl rfl rfl).trans hr
  · rw [if_neg h, exec_upstreamRequest_of_rest r hr, if_neg]
    rw [Fabric.mayAccept, hc]
    simp only [Bool.and_eq_true, State.env, decide_eq_true_eq]
    exact h

/-! ## The classes (R7) -/

theorem filter_allSurfaces_eq (i : Fin 8) : allSurfaces.filter (fun k => decide (k = i)) = [i] := by
  revert i
  decide

theorem Fabric.mem_met {f : Fabric} {r : UpRequest} {i : Fin 8} : i ∈ f.met r ↔ f.Meets r i := by
  simp only [Fabric.met, List.mem_filter, mem_allSurfaces, true_and, Bool.and_eq_true, Lifecycle.live_iff, Surface.meets,
    decide_eq_true_eq, Fabric.Meets]
  rfl

theorem Fabric.Within.meets {f : Fabric} {r : UpRequest} {i : Fin 8} (h : f.Within r i) (h1 : 1 ≤ r.len) : f.Meets r i := by
  obtain ⟨hl, ha, he, -⟩ := h
  exact ⟨hl, by omega, by omega⟩

theorem Fabric.Within.met {f : Fabric} {r : UpRequest} {i : Fin 8} (h : f.Within r i) (h1 : 1 ≤ r.len) : f.met r = [i] := by
  rw [← filter_allSurfaces_eq i]
  refine List.filter_congr fun k _ => ?_
  have hk : k ∈ f.met r ↔ k = i :=
    Fabric.mem_met.trans ⟨fun hm => by_contra fun hne => h.2.2.2 k hne hm, fun e => e ▸ h.meets h1⟩
  simp only [Fabric.met, List.mem_filter, mem_allSurfaces, true_and] at hk
  exact Bool.eq_iff_iff.mpr (hk.trans decide_eq_true_iff.symm)

theorem Surface.holdsSpan_iff {su : Surface} {r : UpRequest} : su.holdsSpan r = true ↔
    su.desc.apBase.toNat ≤ r.addr.toNat ∧ r.addr.toNat + r.len ≤ su.desc.apBase.toNat + su.desc.apSize := by
  rw [Surface.holdsSpan, Bool.and_eq_true, decide_eq_true_eq, decide_eq_true_eq]
  rfl

theorem malformed_iff {r : UpRequest} : malformed r = true ↔ r.len = 0 ∨ 256 < r.len ∨ 2 ^ 40 < r.addr.toNat + r.len := by
  simp only [malformed, Bool.or_eq_true, beq_iff_eq, decide_eq_true_eq, or_assoc]

theorem not_malformed {r : UpRequest} (h1 : 1 ≤ r.len) (h2 : r.len ≤ 256) (h3 : r.addr.toNat + r.len ≤ 2 ^ 40) :
    malformed r = false := by
  refine Bool.eq_false_iff.mpr fun h => ?_
  rcases malformed_iff.mp h with h | h | h <;> omega

theorem Fabric.classify_of_within {f : Fabric} (env : Env) {r : UpRequest} {i : Fin 8} (hm : malformed r = false)
    (h : f.Within r i) (h1 : 1 ≤ r.len) : f.classify env r =
      if r.source = env.scanSource (f.surf i) then
        match r.kind with
        | .read => .scanout i
        | .write => .refused
      else .producer i := by
  have hh : (f.surf i).holdsSpan r = true := Surface.holdsSpan_iff.mpr ⟨h.2.1, h.2.2.1⟩
  simp only [Fabric.classify, hm, h.met h1, hh]
  rfl

/-- A span that lies partly inside a live aperture, or in two, is refused. -/
theorem Fabric.classify_refused {f : Fabric} (env : Env) {r : UpRequest} {i : Fin 8} (hm : malformed r = false) (hi : f.Meets r i)
    (h : (f.surf i).holdsSpan r = false ∨ ∃ k, i ≠ k ∧ f.Meets r k) : f.classify env r = .refused := by
  have hmem := Fabric.mem_met.mpr hi
  unfold Fabric.classify
  rw [hm]
  match hl : f.met r with
  | [] => simp [hl] at hmem
  | [x] =>
    obtain rfl : i = x := by simpa [hl] using hmem
    have hh : (f.surf i).holdsSpan r = false := h.resolve_right fun ⟨k, hne, hk⟩ => by
      have := Fabric.mem_met.mpr hk
      rw [hl, List.mem_singleton] at this
      exact hne this.symm
    simp [hh]
  | x :: y :: l => rfl

/-! ## Requests answered at acceptance (R2, R8, R12) -/

theorem Descriptor.isStream_iff_toNat {d : Descriptor} : d.isStream = true ↔ d.mode.toNat = 1 := by
  rw [Descriptor.isStream_iff]
  exact ⟨fun h => by rw [h]; rfl, fun h => BitVec.eq_of_toNat_eq h⟩

theorem Descriptor.fmt_f8_iff {d : Descriptor} : d.fmt = .f8 ↔ d.format.toNat = 0 := by
  have h0 : d.format = 0 ↔ d.format.toNat = 0 := ⟨fun h => by rw [h]; rfl, fun h => BitVec.eq_of_toNat_eq h⟩
  rw [← h0, Descriptor.fmt]
  by_cases h : d.format = 0
  · simp only [h, if_true]
  · simp only [h, if_false, iff_false]
    split
    · simp
    · split <;> simp

/-- The model's checks at acceptance are the rules of R8. -/
theorem refusesProducer_iff {f : Fabric} {r : UpRequest} {i : Fin 8} (hw : r.wellFormed = true) :
    (f.surf i).refusesProducer r = true ↔ f.Breaks r i := by
  unfold Surface.refusesProducer Fabric.Breaks
  by_cases hd : (f.surf i).life = .detaching
  · simp [hd]
  · by_cases hs : (f.surf i).desc.isStream = true
    · have hm := Descriptor.isStream_iff_toNat.mp hs
      cases hk : r.kind with
      | read => simp [hd, hs, hm]
      | write =>
        have hl : r.bytes.length = r.len := by simpa [UpRequest.wellFormed, hk] using hw
        have ht : r.bytes.take r.len = r.bytes := by rw [← hl, List.take_length]
        simp [hd, hs, hm, ht, hl]
    · have hm : (f.surf i).desc.mode.toNat ≠ 1 := mt Descriptor.isStream_iff_toNat.mpr hs
      simp only [hd, hs, hm, if_false, Bool.false_eq_true, Bool.or_eq_true, Bool.and_eq_true, decide_eq_true_eq, Descriptor.fmt_f8_iff, false_or,
        ne_eq, not_false_eq_true, true_and, false_and, or_false]
      rfl

/-- A request answered at acceptance changes nothing else. -/
theorem exec_answered {s : State} {r : UpRequest} (code : UpCode) (hr : s.AtRest) (hd : s.device = .running)
    (hp : s.fab.classify s.env r ≠ .passThrough) (hs : ∀ i, s.fab.classify s.env r ≠ .scanout i)
    (ha : ({ s.fab with offered := [r] } : Fabric).accept s.env r = ({ s.fab with offered := [r] } : Fabric).answerAtOnce r code) :
    exec (.upstreamRequest r) s = .next
      { s with fab := { s.fab with sent := s.fab.sent ++ [{ tag := r.tag, code := code, data := [] }] } } := by
  refine exec_upstreamRequest_of_still hr ?_ (ha.trans ?_) ?_
  · exact Fabric.mayAccept_of_running (State.env_running hd) (fun h => absurd h hp) fun i h => absurd h (hs i)
  · rfl
  · exact (Fabric.rests_congr (g := s.fab) rfl rfl rfl rfl).trans hr

theorem exec_refused {s : State} {r : UpRequest} (hr : s.AtRest) (hd : s.device = .running)
    (hc : s.fab.classify s.env r = .refused ∨ s.fab.classify s.env r = .malformed) :
    exec (.upstreamRequest r) s = .next
      { s with fab := { s.fab with sent := s.fab.sent ++ [{ tag := r.tag, code := .refused, data := [] }] } } := by
  rcases hc with hc | hc <;>
    refine exec_answered .refused hr hd (by simp [hc]) (by simp [hc]) ?_ <;>
    rw [Fabric.accept, show ({ s.fab with offered := [r] } : Fabric).classify s.env r = _ from hc]

/-- Settles O46. -/
theorem answeredAtAcceptance : Obligations.AnsweredAtAcceptance := by
  intro s r hr hd hw
  refine ⟨fun h => ?_, fun h1 h2 h3 => ?_⟩
  · refine exec_refused hr hd (Or.inr ?_)
    simp only [Fabric.classify, malformed_iff.mpr h, if_true]
  have hm := not_malformed h1 h2 h3
  refine ⟨fun h => ?_, fun i hi hs hk => ?_, fun i hi hs => ?_, fun i hi hn => ?_, fun i k hne hi hk => ?_, fun i hi hs hk => ?_,
    fun i hi hs hb => ?_, fun i hi hs hb hl => ?_⟩
  · have : s.fab.met r = [] := List.eq_nil_iff_forall_not_mem.mpr fun i hi => h i (Fabric.mem_met.mp hi)
    simp only [Fabric.classify, hm, this]
    rfl
  · rw [Fabric.classify_of_within s.env hm hi h1, if_pos (show r.source = s.env.scanSource (s.fab.surf i) from hs), hk]
  · rw [Fabric.classify_of_within s.env hm hi h1]
    exact if_neg hs
  · exact exec_refused hr hd (Or.inl (Fabric.classify_refused s.env hm hi
      (Or.inl (Bool.eq_false_iff.mpr (mt Surface.holdsSpan_iff.mp hn)))))
  · exact exec_refused hr hd (Or.inl (Fabric.classify_refused s.env hm hi (Or.inr ⟨k, hne, hk⟩)))
  · refine exec_refused hr hd (Or.inl ?_)
    rw [Fabric.classify_of_within s.env hm hi h1, if_pos (show r.source = s.env.scanSource (s.fab.surf i) from hs), hk]
  · have hc : s.fab.classify s.env r = .producer i := (Fabric.classify_of_within s.env hm hi h1).trans (if_neg hs)
    refine exec_answered .refused hr hd (by simp [hc]) (by simp [hc]) ?_
    rw [Fabric.accept, show ({ s.fab with offered := [r] } : Fabric).classify s.env r = _ from hc]
    exact if_pos ((refusesProducer_iff hw).mpr hb)
  · have hc : s.fab.classify s.env r = .producer i := (Fabric.classify_of_within s.env hm hi h1).trans (if_neg hs)
    refine exec_answered .retry hr hd (by simp [hc]) (by simp [hc]) ?_
    rw [Fabric.accept, show ({ s.fab with offered := [r] } : Fabric).classify s.env r = _ from hc]
    exact (if_neg (mt (refusesProducer_iff hw).mp hb)).trans (if_pos hl)

end Sys2Proof.Machine

/-! # Parts that end, tags that expire, and the microsecond on an empty queue -/

namespace Sys2Proof.Machine

set_option Elab.async false

/-! ## Response records (R17, R18) -/

theorem Fabric.find?_modRecord (f : Fabric) (id : Nat) {g : RespRecord → RespRecord} (hg : ∀ r, (g r).id = r.id) :
    (f.modRecord id g).records.find? (fun r => r.id == id) = (f.records.find? (fun r => r.id == id)).map g := by
  simp only [Fabric.modRecord]
  induction f.records with
  | nil => rfl
  | cons r l ih =>
    by_cases h : r.id = id
    · simp [h, hg]
    · simp [h, ih]

theorem Fabric.filter_modRecord (f : Fabric) (id : Nat) {g : RespRecord → RespRecord} (hg : ∀ r, (g r).id = r.id) :
    (f.modRecord id g).records.filter (fun r => r.id != id) = f.records.filter (fun r => r.id != id) := by
  simp only [Fabric.modRecord]
  induction f.records with
  | nil => rfl
  | cons r l ih =>
    by_cases h : r.id = id
    · simp [h, hg, ih]
    · simp [h, ih]

theorem Worst.join_okay (w : Worst) : w.join .okay = w := by cases w <;> rfl

theorem Worst.join_fault (w : Worst) : w.join .fault = .fault := by cases w <;> rfl

/-- The last part of a marked record ends: the record answers and closes. -/
theorem Fabric.partEnded_of_last {f : Fabric} {id : Nat} {r : RespRecord} (hf : f.records.find? (fun q => q.id == id) = some r)
    (hi : r.issued = 1) (hm : r.mark = true) (res : Worst) (g : List Byte → List Byte) :
    f.partEnded id res g = { f with
      records := f.records.filter (fun q => q.id != id),
      sent := f.sent ++ [({ r with issued := 0, worst := r.worst.join res, data := g r.data } : RespRecord).answer] } := by
  have hg : ∀ r : RespRecord, ({ r with issued := r.issued - 1, worst := r.worst.join res, data := g r.data } : RespRecord).id = r.id :=
    fun _ => rfl
  rw [Fabric.partEnded, Fabric.closeIfDone, Fabric.find?_modRecord f id hg, hf]
  simp only [Option.map_some, hi, hm, Nat.sub_self, and_self, if_true]
  rw [Fabric.filter_modRecord f id hg]
  rfl

/-- Any other part ends: the record waits with one part fewer. -/
theorem Fabric.partEnded_of_more {f : Fabric} {id : Nat} {r : RespRecord} (hf : f.records.find? (fun q => q.id == id) = some r)
    (hi : ¬ (r.issued - 1 = 0 ∧ r.mark = true)) (res : Worst) (g : List Byte → List Byte) :
    f.partEnded id res g =
      f.modRecord id (fun q => { q with issued := q.issued - 1, worst := q.worst.join res, data := g q.data }) := by
  have hg : ∀ r : RespRecord, ({ r with issued := r.issued - 1, worst := r.worst.join res, data := g r.data } : RespRecord).id = r.id :=
    fun _ => rfl
  rw [Fabric.partEnded, Fabric.closeIfDone, Fabric.find?_modRecord f id hg, hf]
  exact if_neg hi

/-! ## Completions of pass-through accesses (R159, R160, R162) -/

/-- The end of a pass-through access reaches its record, and an expiry the event queue. -/
theorem Fabric.complete_pass (f : Fabric) (env : Env) (tb : Tables) {e : TagEntry} (hk : e.kind = .pass) (hs : e.surface = none)
    (t : Fin 32) (res : AccessEnd) : f.complete env tb e t res = (f.deliver tb e res).logFailure env e t res := by
  have h : ∀ g : Fabric, g.failureEffects env e t res = g.logFailure env e t res := by
    intro g
    cases res <;> simp [Fabric.failureEffects, AccessEnd.failed, Fabric.logFailure, hk, hs]
  simp only [Fabric.complete, h, Fabric.countDown, Fabric.chunkEnded, hk, hs]

theorem Fabric.deliver_part (f : Fabric) (tb : Tables) {e : TagEntry} {id : Nat} (hu : e.upRef = some id) (res : AccessEnd)
    (hk : e.kind = .pass ∨ e.kind = .producerWrite ∨ e.kind = .producerRead ∨ e.kind = .scanoutRead) :
    f.deliver tb e res = f.partEnded id res.worst (f.areaWriter e res) := by
  rcases hk with hk | hk | hk | hk <;> simp only [Fabric.deliver, hk, hu]

/-! ## The end of RESETTING (R186) -/

theorem State.endReset_of_running {s : State} (h : s.device = .running) : s.endReset = s := by
  rw [State.endReset, if_neg]
  rintro ⟨h', -⟩
  rw [h] at h'
  cases h'

/-- What an event that touches the fabric and the tags leaves alone. -/
structure State.SameAround (s t : State) : Prop where
  timebase : t.timebase = s.timebase := by rfl
  limit : t.limit = s.limit := by rfl
  issued : t.issued = s.issued := by rfl
  pipes : t.pipes = s.pipes := by rfl
  tables : t.tables = s.tables := by rfl
  link : t.link = s.link := by rfl
  mask : t.mask = s.mask := by rfl
  cdo : t.cdo = s.cdo := by rfl
  pending : t.pending = s.pending := by rfl

theorem State.SameAround.trans {s t u : State} (a : s.SameAround t) (b : t.SameAround u) : s.SameAround u where
  timebase := b.timebase.trans a.timebase
  limit := b.limit.trans a.limit
  issued := b.issued.trans a.issued
  pipes := b.pipes.trans a.pipes
  tables := b.tables.trans a.tables
  link := b.link.trans a.link
  mask := b.mask.trans a.mask
  cdo := b.cdo.trans a.cdo
  pending := b.pending.trans a.pending

theorem State.sameAround_endReset (s : State) : s.SameAround s.endReset := by
  unfold State.endReset
  split <;> exact {}

theorem State.tags_endReset (s : State) : s.endReset.tags = s.tags := by
  unfold State.endReset
  split <;> rfl

theorem State.sameAround_finish (s : State) : s.SameAround s.finish :=
  ⟨s.finish_timebase, s.finish_limit, s.finish_issued, s.finish_pipes, s.finish_tables, s.finish_link, s.finish_mask,
    s.finish_cdo, s.finish_pending⟩

theorem State.tag_finish (s : State) (k : Fin 32) : s.finish.tag k = s.tag k := by rw [State.tag, s.finish_tags, State.tag]

/-! ## Expiries (R161, R162) -/

theorem State.due_iff {s : State} {k : Fin 32} : s.due k = true ↔ s.Expired k := by
  simp only [State.due, State.Expired, Bool.and_eq_true, decide_eq_true_eq, and_assoc]

/-- What TAG_TIMEOUT leaves. -/
def State.expireOne (s : State) (t : Fin 32) : State := if s.due t then (s.expireTag t).finish else s

theorem State.sameAround_expireTag (s : State) (t : Fin 32) : s.SameAround (s.expireTag t) :=
  State.SameAround.trans (b := State.sameAround_endReset _) {}

theorem State.tag_expireTag (s : State) (t k : Fin 32) :
    (s.expireTag t).tag k = if k = t then { s.tag t with st := .quarantined, upRef := none } else s.tag k := by
  simp only [State.tag, State.expireTag, State.tags_endReset]
  split
  case isTrue h =>
    subst h
    exact State.tag_setTag_same _ _ _
  case isFalse h => exact State.tag_setTag_other _ _ (Ne.symm h)

theorem State.expireTag_device {s : State} (t : Fin 32) (hd : s.device = .running) : (s.expireTag t).device = .running := by
  rw [State.expireTag, State.endReset_of_running]
  · exact hd
  · exact hd

theorem State.sameAround_expireOne (s : State) (t : Fin 32) : s.SameAround (s.expireOne t) := by
  unfold State.expireOne
  split
  · exact (State.sameAround_expireTag s t).trans (State.sameAround_finish _)
  · exact {}

theorem State.tag_expireOne (s : State) (t k : Fin 32) : (s.expireOne t).tag k =
    if k = t ∧ s.due t = true then { s.tag t with st := .quarantined, upRef := none } else s.tag k := by
  unfold State.expireOne
  by_cases hd : s.due t = true
  · simp only [hd, if_true, and_true, State.tag_finish, State.tag_expireTag]
  · simp only [hd, and_false, if_false, Bool.false_eq_true]

theorem State.expireOne_device {s : State} (t : Fin 32) (hd : s.device = .running) : (s.expireOne t).device = .running := by
  unfold State.expireOne
  split
  · rw [State.finish_device]
    exact State.expireTag_device t hd
  · exact hd

theorem State.sameAround_expiries (l : List (Fin 32)) (s : State) : s.SameAround (l.foldl State.expireOne s) := by
  induction l generalizing s with
  | nil => exact {}
  | cons t l ih => exact (s.sameAround_expireOne t).trans (ih _)

theorem State.expiries_device (l : List (Fin 32)) {s : State} (hd : s.device = .running) :
    (l.foldl State.expireOne s).device = .running := by
  induction l generalizing s with
  | nil => exact hd
  | cons t l ih => exact ih (State.expireOne_device t hd)

/-- Tags that expire one after another: exactly those that are due. -/
theorem State.tag_expiries (l : List (Fin 32)) (hl : l.Nodup) (s : State) (k : Fin 32) : (l.foldl State.expireOne s).tag k =
    if k ∈ l ∧ s.due k = true then { s.tag k with st := .quarantined, upRef := none } else s.tag k := by
  induction l generalizing s with
  | nil => simp
  | cons t l ih =>
    obtain ⟨ht, hl⟩ := List.nodup_cons.mp hl
    have a := s.sameAround_expireOne t
    rw [List.foldl_cons, ih hl]
    by_cases hk : k = t
    · subst hk
      simp only [ht, false_and, if_false, List.mem_cons, true_or, true_and]
      rw [State.tag_expireOne]
      simp only [true_and]
    · have htag : (s.expireOne t).tag k = s.tag k := by simp [State.tag_expireOne, hk]
      have hdue : (s.expireOne t).due k = s.due k := by simp only [State.due, htag, a.limit, a.timebase]
      simp only [htag, hdue, List.mem_cons, hk, false_or]

theorem execAll_tagTimeouts (l : List (Fin 32)) (cs : List Instr) (s : State) :
    execAll (l.map .tagTimeout ++ cs) s = execAll cs (l.foldl State.expireOne s) := by
  induction l generalizing s with
  | nil => rfl
  | cons t l ih => exact ih (s.expireOne t)

theorem State.tag_expireDue (s : State) (k : Fin 32) :
    s.expireDue.tag k = if s.due k = true then { s.tag k with st := .quarantined, upRef := none } else s.tag k := by
  refine (State.tag_expiries allTags (List.nodup_finRange 32) s k).trans ?_
  simp only [allTags, List.mem_finRange, true_and]

theorem exec_setTimeout {s : State} {v : Byte} (ht : s.Takes 0x60 [v]) (hd : s.device = .running) :
    exec (.setTimeout [v]) s = .next (State.replied { s with limit := v }.expireDue .ok [s.limit]) := by
  have he : applySetTimeout [v] s = State.okWith { s with limit := v }.expireDue [s.limit] := by
    unfold applySetTimeout
    rfl
  rw [show exec (.setTimeout [v]) s = .next (State.answer (applySetTimeout [v] s)) from
    exec_row_running (c := .setTimeout) ht rfl hd, he, State.answer_okWith]

/-- Settles O39. -/
theorem setTimeoutApplies : Obligations.SetTimeoutApplies := by
  intro s v ht hd
  have a := State.sameAround_expiries allTags { s with limit := v }
  have hall := execAll_tagTimeouts (List.finRange 32) [] { s with limit := v }
  have hdev : (allTags.foldl State.expireOne { s with limit := v }).device = .running := State.expiries_device allTags hd
  have htag := State.tag_expireDue { s with limit := v }
  have hexec := exec_setTimeout ht hd
  have hu : State.expireDue { s with limit := v } = allTags.foldl State.expireOne { s with limit := v } := rfl
  rw [List.append_nil, show List.finRange 32 = allTags from rfl] at hall
  rw [hu] at htag hexec
  generalize allTags.foldl State.expireOne { s with limit := v } = u at a hall hdev htag hexec
  refine ⟨u, u.replied .ok [s.limit], hall, hexec, rfl, ?_, a.limit, fun k => ?_, a.issued, hdev.trans hd.symm, a.timebase,
    a.pipes, a.tables, a.mask, a.cdo, a.pending⟩
  · change Link.responding u.link .ok [s.limit] = _
    rw [a.link]
  · refine (htag k).trans ?_
    have h : State.due { s with limit := v } k = true ↔
        (s.tag k).st = .issued ∧ v ≠ 0 ∧ v.toNat * 64 ≤ (s.timebase - (s.tag k).issueTime).toNat := State.due_iff
    by_cases hk : State.due { s with limit := v } k = true
    · rw [if_pos hk, if_pos (h.mp hk)]
      rfl
    · rw [if_neg hk, if_neg (mt h.mpr hk)]
      rfl

theorem State.linkLimit_rest (u : State) : u.linkLimit.timebase = u.timebase ∧ u.linkLimit.tags = u.tags ∧
    u.linkLimit.issued = u.issued ∧ u.linkLimit.limit = u.limit ∧ u.linkLimit.pipes = u.pipes ∧ u.linkLimit.tables = u.tables ∧
    u.linkLimit.mask = u.mask ∧ u.linkLimit.cdo = u.cdo ∧ u.linkLimit.pending = u.pending := by
  unfold State.linkLimit
  split <;> exact ⟨rfl, rfl, rfl, rfl, rfl, rfl, rfl, rfl, rfl⟩

theorem State.linkLimit_link (u : State) : u.linkLimit.link =
    if u.link.state = .paused ∧ 20000 ≤ (u.timebase - u.link.pauseStart).toNat then
      { u.link with state := .idle, asm := [], bitCount := 0, shift := 0, cselHigh := true, response := [], respPos := 0,
                    lastError := .holdLimit }
    else u.link := by
  unfold State.linkLimit
  split
  case isTrue h => exact (if_pos h).symm
  case isFalse h => exact (if_neg h).symm

/-- Settles O1. -/
theorem stepTakesFrontCommand : Obligations.StepTakesFrontCommand := by
  refine ⟨fun c cs s => rfl, fun s hp => ?_⟩
  have a := State.sameAround_expiries allTags s
  obtain ⟨htime, htags, h1, h2, h3, h4, h5, h6, h7⟩ := s.expireDue.linkLimit_rest
  refine ⟨s.takeDue, ?_, ?_, fun k => ?_, ?_⟩
  · rw [execAll_tagTimeouts]
    rfl
  · have htick : s.tick = { s.takeDue with timebase := s.timebase + 1 } := by
      rw [State.tick]
      exact congrArg (fun w : Word => ({ s.takeDue with timebase := w + 1 } : State)) (htime.trans a.timebase)
    rw [step, hp, htick]
  · have htag : s.takeDue.tag k = s.expireDue.tag k := by
      rw [State.tag, State.takeDue, htags, State.tag]
    rw [htag, State.tag_expireDue]
    exact ⟨fun h => if_pos (State.due_iff.mpr h), fun h => if_neg (mt State.due_iff.mp h)⟩
  · refine ⟨?_, h1.trans a.issued, h2.trans a.limit, h3.trans a.pipes, h4.trans a.tables, h5.trans a.mask, h6.trans a.cdo,
      (h7.trans a.pending).trans hp⟩
    rw [State.takeDue, State.linkLimit_link, show s.expireDue.link = s.link from a.link,
      show s.expireDue.timebase = s.timebase from a.timebase]

/-! ## The response for a pass-through part (R5, R17, R18) -/

theorem readData_length (fresh : Nat) (data : List Byte) : readData fresh data data.length = data := by
  simp [readData]

/-- A response for an ISSUED tag, RUNNING, whose completion leaves the part at rest. -/
theorem respond_of_rest {s : State} {k : Fin 32} {code : DownCode} {data : List Byte} {f : Fabric} (hd : s.device = .running)
    (hi : (s.tag k).st = .issued) (hf : s.fab.complete s.env s.tables (s.tag k) k (s.responseEnd (s.tag k) code data) = f)
    (hr : f.rests = true) : exec (.downstreamResponse k code data) s = .next
      ({ s with fab := f, freeCount := s.freeCount + (s.wanted (s.tag k) - data.length) }.setTag k TagEntry.cleared) := by
  have ht : s.takeResponse k code data =
      { s with fab := f, freeCount := s.freeCount + (s.wanted (s.tag k) - data.length) }.setTag k TagEntry.cleared := by
    rw [State.takeResponse, hf, State.endReset_of_running]
    exact hd
  refine congrArg Host.Outcome.next ?_
  rw [State.respond, hi]
  simp only [ht]
  exact State.finish_of_rest _ hr

/-- Settles O53. -/
theorem passThroughAnswered : Obligations.PassThroughAnswered := by
  intro s k code data id r pos hr hd hi hk hs hu hroute hf h1 okay worst area left
  have hw : s.wanted (s.tag k) ≤ data.length := by
    rw [State.wanted, hk]
    rcases hroute with ⟨-, h⟩ | ⟨-, h⟩ <;> rw [h]
    · exact le_rfl
    · exact Nat.zero_le _
  have hfree : s.freeCount + (s.wanted (s.tag k) - data.length) = s.freeCount := by omega
  have hworst : r.worst.join (s.responseEnd (s.tag k) code data).worst = worst := by
    cases code
    · exact Worst.join_okay _
    · exact Worst.join_fault _
  have harea : s.fab.areaWriter (s.tag k) (s.responseEnd (s.tag k) code data) r.data = area := by
    cases code with
    | error => rfl
    | okay =>
      rcases hroute with ⟨hrd, h⟩ | ⟨hwr, h⟩
      · have : s.wanted (s.tag k) = data.length := by rw [State.wanted, hk, h]; rfl
        simp only [State.responseEnd, Fabric.areaWriter, h, this, readData_length, area, okay, hrd, and_self, if_true]
      · simp [State.responseEnd, Fabric.areaWriter, h, area, hwr]
  have hcomplete : s.fab.complete s.env s.tables (s.tag k) k (s.responseEnd (s.tag k) code data) =
      s.fab.partEnded id (s.responseEnd (s.tag k) code data).worst
        (s.fab.areaWriter (s.tag k) (s.responseEnd (s.tag k) code data)) := by
    rw [Fabric.complete_pass _ _ _ hk hs, Fabric.deliver_part _ _ hu _ (Or.inl hk)]
    cases code <;> simp only [State.responseEnd, Fabric.logFailure, hk]
  refine ⟨fun ⟨hone, hmark⟩ => ?last, fun hn huniq => ?more⟩
  case last =>
    rw [respond_of_rest hd hi (hcomplete.trans (Fabric.partEnded_of_last hf hone hmark _ _))
      ((Fabric.rests_congr (g := s.fab) rfl rfl rfl rfl).trans hr), hfree, hworst, harea]
    simp only [RespRecord.answer, and_comm]
    cases worst <;> rfl
  case more =>
    rw [respond_of_rest hd hi (hcomplete.trans (Fabric.partEnded_of_more hf (fun h => hn ⟨by omega, h.2⟩) _ _))
      ((Fabric.rests_congr (g := s.fab) rfl rfl rfl rfl).trans hr), hfree]
    have hmap : s.fab.records.map (fun q => if q.id = id then
        { q with issued := q.issued - 1, worst := q.worst.join (s.responseEnd (s.tag k) code data).worst,
                 data := s.fab.areaWriter (s.tag k) (s.responseEnd (s.tag k) code data) q.data } else q) =
        s.fab.records.map (fun q => if q.id = id then { r with issued := r.issued - 1, worst := worst, data := area } else q) := by
      refine List.map_congr_left fun q hq => ?_
      by_cases hid : q.id = id
      · rw [if_pos hid, if_pos hid, huniq q hq hid, hworst, harea]
      · rw [if_neg hid, if_neg hid]
    simp only [Fabric.modRecord, hmap]
    rfl

end Sys2Proof.Machine

/-! # The boundary's delivery, and the hold limit -/

namespace Sys2Proof.Machine

set_option Elab.async false

/-! ## The FILLING and the SHOWN buffer -/

theorem countP_unique {α : Type} {p : α → Bool} {l : List α} (h : l.countP p ≤ 1) {m n : Nat} {x y : α} (hx : l[m]? = some x)
    (hy : l[n]? = some y) (px : p x = true) (py : p y = true) : m = n := by
  induction l generalizing m n with
  | nil => cases hx
  | cons a l ih =>
    have zero : ∀ {z : α}, p a = true → z ∈ l → p z = true → False := by
      intro z ha hz hpz
      rw [List.countP_cons, if_pos ha] at h
      exact List.countP_eq_zero.mp (by omega) z hz hpz
    match m, n, hx, hy with
    | 0, 0, _, _ => rfl
    | 0, n + 1, hx, hy => exact (zero (Option.some.inj hx ▸ px) (List.mem_of_getElem? hy) py).elim
    | m + 1, 0, hx, hy => exact (zero (Option.some.inj hy ▸ py) (List.mem_of_getElem? hx) px).elim
    | m + 1, n + 1, hx, hy =>
      rw [List.countP_cons] at h
      exact congrArg _ (ih (by omega) hx hy)

/-- At most one buffer of a surface is in a state of which there is at most one. -/
theorem Surface.unique_of_countIn {su : Surface} {st : BufState} (h : su.countIn st ≤ 1) {m n : Nat} {x y : BufRec}
    (hx : su.bufs[m]? = some x) (hy : su.bufs[n]? = some y) (px : x.st = st) (py : y.st = st) : m = n :=
  countP_unique h hx hy (decide_eq_true px) (decide_eq_true py)

theorem Surface.filling_eq_of {su : Surface} (h : su.countIn .filling ≤ 1) {b : Nat} {r : BufRec} (hb : su.bufs[b]? = some r)
    (hr : r.st = .filling) : su.filling = some b := by
  cases hf : su.filling with
  | none => exact absurd hr (Surface.filling_none.mp hf r (List.mem_of_getElem? hb))
  | some c =>
    obtain ⟨q, hq, hst⟩ := Surface.filling_some hf
    rw [Surface.unique_of_countIn h hq hb hst hr]

theorem Surface.shown_eq_of {su : Surface} (h : su.countIn .shown ≤ 1) {b : Nat} {r : BufRec} (hb : su.bufs[b]? = some r)
    (hr : r.st = .shown) : su.shown = some b := by
  cases hf : su.shown with
  | none => exact absurd hr (Surface.shown_none.mp hf r (List.mem_of_getElem? hb))
  | some c =>
    obtain ⟨q, hq, hst⟩ := Surface.shown_some hf
    rw [Surface.unique_of_countIn h hq hb hst hr]

/-- A head that waits for a buffer has no FILLING one. -/
theorem Surface.filling_of_waiting {su : Surface} (h : BuffersSafe su) (hw : su.head = .waiting) : su.filling = none := by
  refine Surface.filling_none.mpr fun r hr hst => ?_
  have := List.countP_eq_zero.mp (h.2.2 hw) r hr
  simp [hst] at this

/-- Ageing changes the SHOWN buffer alone (R116). -/
theorem Surface.ageShown_eq {su : Surface} (h : su.countIn .shown ≤ 1) : su.ageShown = { su with
    bufs := su.bufs.map (fun x => if x.st = .shown then { x with age := min 255 (x.age + 1) } else x) } := by
  unfold Surface.ageShown
  cases hs : su.shown with
  | none =>
    have : su.bufs.map (fun x => if x.st = .shown then { x with age := min 255 (x.age + 1) } else x) = su.bufs := by
      rw [List.map_congr_left fun x hx => if_neg (Surface.shown_none.mp hs x hx), List.map_id']
    simp only [this]
  | some b =>
    obtain ⟨r, hr, hst⟩ := Surface.shown_some hs
    have : (su.modBuf b (fun r => { r with age := min 255 (r.age + 1) })).bufs =
        su.bufs.map (fun x => if x.st = .shown then { x with age := min 255 (x.age + 1) } else x) := by
      refine List.ext_getElem? fun k => ?_
      rw [Surface.bufs_modBuf, List.getElem?_map]
      by_cases hk : b = k
      · rw [if_pos hk, ← hk, hr]
        simp [hst]
      · rw [if_neg hk]
        cases hx : su.bufs[k]? with
        | none => rfl
        | some x =>
          have : x.st ≠ .shown := fun e => hk (Surface.unique_of_countIn h hr hx hst e)
          simp [this]
    exact congrArg (fun l => ({ su with bufs := l } : Surface)) this

theorem Surface.states_map {su : Surface} {g : BufRec → BufRec} (h : ∀ x, (g x).st = x.st) :
    ({ su with bufs := su.bufs.map g } : Surface).states = su.states := by
  simp only [Surface.states, List.map_map]
  exact List.map_congr_left fun x _ => h x

theorem Surface.st_buf (su : Surface) (k : Nat) : (su.buf k).st = (su.states[k]?).getD .free := by
  rw [Surface.states_getElem?, Surface.buf, List.getD_eq_getElem?_getD]
  cases su.bufs[k]? <;> rfl

/-! ## What the two events of a boundary do to the scanout values (R114, R124) -/

/-- The pending values stay, and the active ones stay or take them. -/
structure Surface.ScanTo (latched : Prop) (su su' : Surface) : Prop where
  pending : su'.scrollPending = su.scrollPending ∧ su'.topPending = su.topPending ∧ su'.bottomPending = su.bottomPending
  taken : latched → su'.scrollActive = su.scrollPending ∧ su'.topActive = su.topPending ∧ su'.bottomActive = su.bottomPending
  kept : ¬ latched → su'.scrollActive = su.scrollActive ∧ su'.topActive = su.topActive ∧ su'.bottomActive = su.bottomActive

theorem Surface.ScanTo.then_kept {p : Prop} {a b c : Surface} (h : a.ScanTo p b) (k : b.ScanTo False c) : a.ScanTo p c where
  pending := by
    obtain ⟨h1, h2, h3⟩ := h.pending
    obtain ⟨k1, k2, k3⟩ := k.pending
    exact ⟨k1.trans h1, k2.trans h2, k3.trans h3⟩
  taken := fun hp => by
    obtain ⟨h1, h2, h3⟩ := h.taken hp
    obtain ⟨k1, k2, k3⟩ := k.kept not_false
    exact ⟨k1.trans h1, k2.trans h2, k3.trans h3⟩
  kept := fun hp => by
    obtain ⟨h1, h2, h3⟩ := h.kept hp
    obtain ⟨k1, k2, k3⟩ := k.kept not_false
    exact ⟨k1.trans h1, k2.trans h2, k3.trans h3⟩

theorem Surface.ScanTo.after_kept {p : Prop} {a b c : Surface} (h : a.ScanTo False b) (k : b.ScanTo p c) : a.ScanTo p c where
  pending := by
    obtain ⟨h1, h2, h3⟩ := h.pending
    obtain ⟨k1, k2, k3⟩ := k.pending
    exact ⟨k1.trans h1, k2.trans h2, k3.trans h3⟩
  taken := fun hp => by
    obtain ⟨h1, h2, h3⟩ := h.pending
    obtain ⟨k1, k2, k3⟩ := k.taken hp
    exact ⟨k1.trans h1, k2.trans h2, k3.trans h3⟩
  kept := fun hp => by
    obtain ⟨h1, h2, h3⟩ := h.kept not_false
    obtain ⟨k1, k2, k3⟩ := k.kept hp
    exact ⟨k1.trans h1, k2.trans h2, k3.trans h3⟩

theorem Surface.Keeps.scanTo {su su' : Surface} (h : su.Keeps su') : su.ScanTo False su' := by
  obtain ⟨h1, h2, h3, h4, h5, h6⟩ := h.scan
  exact ⟨⟨h1, h2, h3⟩, False.elim, fun _ => ⟨h4, h5, h6⟩⟩

theorem Fabric.scanTo_latches (order : List (Fin 8)) (f : Fabric) (i : Fin 8) :
    (f.surf i).ScanTo (i ∈ order) ((f.latches order).surf i) := by
  induction order generalizing f with
  | nil => exact ⟨⟨rfl, rfl, rfl⟩, fun h => absurd h List.not_mem_nil, fun _ => ⟨rfl, rfl, rfl⟩⟩
  | cons k order ih =>
    have h := ih (f.modSurf k Surface.latchScanout)
    rw [Fabric.latches, List.foldl_cons]
    by_cases hk : k = i
    · subst hk
      rw [Fabric.surf_modSurf_same] at h
      refine ⟨h.pending, fun _ => ?_, fun hn => absurd List.mem_cons_self hn⟩
      by_cases ho : k ∈ order
      · exact h.taken ho
      · exact h.kept ho
    · rw [Fabric.surf_modSurf_other _ _ hk] at h
      refine ⟨h.pending, fun hm => h.taken ?_, fun hn => h.kept fun hm => hn (List.mem_cons_of_mem _ hm)⟩
      exact (List.mem_cons.mp hm).resolve_left (Ne.symm hk)

theorem Fabric.scanTo_flips (f : Fabric) (env : Env) (n : Word) (order : List (Fin 8)) (i : Fin 8) :
    (f.surf i).ScanTo False ((f.flips env n order).surf i) := ((f.keeps_flips env n order).surf i).scanTo

theorem State.scanTo_finish (s : State) (i : Fin 8) : (s.surf i).ScanTo False (s.finish.surf i) := by
  rw [State.surf, State.surf, State.finish_fab]
  exact ((s.fab.keeps_finish s.env).surf i).scanTo

theorem State.offerBetween_cons (s : State) (r : UpRequest) (rs : List UpRequest) :
    s.offerBetween (r :: rs) = (s.onFabric (fun _ f => f.offer r)).finish.offerBetween rs := by
  simp only [State.offerBetween, List.foldl_cons]

theorem State.scanTo_offerBetween (rs : List UpRequest) (s : State) (i : Fin 8) :
    (s.surf i).ScanTo False ((s.offerBetween rs).surf i) := by
  induction rs generalizing s with
  | nil => exact (Surface.Keeps.refl _).scanTo
  | cons r rs ih =>
    rw [State.offerBetween_cons]
    refine Surface.ScanTo.after_kept ?_ (ih _)
    exact State.scanTo_finish (s.onFabric (fun _ f => f.offer r)) i

theorem State.scanTo_deliver (s : State) (n : Word) (order : List (Fin 8)) (between : Option Between) (i : Fin 8) :
    (s.surf i).ScanTo (i ∈ order) ((s.deliver n order between).surf i) := by
  unfold State.deliver
  cases between with
  | none => exact (s.fab.scanTo_flips s.env n order i).after_kept (Fabric.scanTo_latches order _ i)
  | some x =>
    simp only
    split
    · exact ((s.fab.scanTo_latches order i).then_kept
        (State.scanTo_offerBetween x.requests (s.onFabric (fun _ f => f.latches order)) i)).then_kept
          (Fabric.scanTo_flips _ _ n order i)
    · exact ((s.fab.scanTo_flips s.env n order i).after_kept
        (State.scanTo_offerBetween x.requests (s.onFabric (fun env f => f.flips env n order)) i)).after_kept
          (Fabric.scanTo_latches order _ i)

/-! ## What a boundary leaves outside the fabric -/

/-- Nothing but the fabric has changed. -/
def State.OnlyFabric (s t : State) : Prop := ∃ f, t = { s with fab := f }

theorem State.OnlyFabric.trans {s t u : State} (h : s.OnlyFabric t) (k : t.OnlyFabric u) : s.OnlyFabric u := by
  obtain ⟨f, rfl⟩ := h
  obtain ⟨g, rfl⟩ := k
  exact ⟨g, rfl⟩

theorem State.onlyFabric_onFabric (s : State) (g : Env → Fabric → Fabric) : s.OnlyFabric (s.onFabric g) := ⟨_, rfl⟩

theorem State.finish_eq (s : State) : s.finish = { s with fab := s.fab.finish s.env } := by
  unfold State.finish State.onFabric
  rfl

theorem State.onlyFabric_finish (s : State) : s.OnlyFabric s.finish := ⟨s.fab.finish s.env, s.finish_eq⟩

theorem State.onlyFabric_offerBetween (rs : List UpRequest) (s : State) : s.OnlyFabric (s.offerBetween rs) := by
  induction rs generalizing s with
  | nil => exact ⟨s.fab, rfl⟩
  | cons r rs ih =>
    rw [State.offerBetween_cons]
    exact ((s.onlyFabric_onFabric _).trans (State.onlyFabric_finish _)).trans (ih _)

theorem State.onlyFabric_deliver (s : State) (n : Word) (order : List (Fin 8)) (between : Option Between) :
    s.OnlyFabric (s.deliver n order between) := by
  unfold State.deliver
  cases between with
  | none => exact s.onlyFabric_onFabric _
  | some x =>
    simp only
    split <;>
      exact ((s.onlyFabric_onFabric _).trans (State.onlyFabric_offerBetween _ _)).trans (State.onlyFabric_onFabric _ _)

/-- The order in which a boundary reaches the surfaces of its pipe. -/
def State.boundaryOrder (s : State) (p : Fin 4) : List (Fin 8) :=
  pickOrder 8 (Config.surfaceOrder s.freeCount) (s.fab.onPipe p)

theorem State.mem_boundaryOrder {s : State} {p : Fin 4} {i : Fin 8} :
    i ∈ s.boundaryOrder p ↔ (s.surf i).life = .attached ∧ (s.surf i).desc.pipeIndex = p := by
  rw [State.boundaryOrder, (pickOrder_perm _ _ _).mem_iff]
  simp only [Fabric.onPipe, List.mem_filter, mem_allSurfaces, true_and, Bool.and_eq_true, decide_eq_true_eq]
  rfl

/-- The part with the counter of a pipe raised, as a boundary finds it. -/
def State.counted (s : State) (p : Fin 4) : State :=
  { s with pipes := s.pipes.set p.val { s.pipes.get p with counter := (s.pipes.get p).counter + 1 } p.isLt,
           freeCount := s.freeCount + 1 }

theorem State.boundary_enabled {s : State} {p : Fin 4} (h : (s.pipes.get p).enabled = true) (between : Option Between) :
    s.boundary p between =
      ((s.counted p).deliver ((s.pipes.get p).counter + 1) (s.boundaryOrder p) between).finish := by
  unfold State.boundary
  rw [if_pos h]
  unfold State.counted State.boundaryOrder
  rfl

/-- Settles O58. -/
theorem boundaryDelivered : Obligations.BoundaryDelivered := by
  intro s p
  refine ⟨fun h => ?_, fun h between => ⟨_, rfl, ?_⟩⟩
  · refine congrArg Host.Outcome.next ?_
    simp [State.boundary, h]
  · rw [State.boundary_enabled h]
    obtain ⟨f, hf⟩ := (State.onlyFabric_deliver (s.counted p) ((s.pipes.get p).counter + 1) (s.boundaryOrder p) between).trans
      (State.onlyFabric_finish _)
    have hscan := fun i => ((State.scanTo_deliver (s.counted p) ((s.pipes.get p).counter + 1) (s.boundaryOrder p) between i).then_kept
      (State.scanTo_finish _ i))
    generalize ((s.counted p).deliver ((s.pipes.get p).counter + 1) (s.boundaryOrder p) between).finish = t at hf hscan
    subst hf
    refine ⟨?_, fun q hq => ?_, fun i => ?_, rfl, rfl, rfl, rfl, rfl, rfl, rfl, rfl, rfl⟩
    · simp [State.counted, vectorGet]
    · have : p.val ≠ q.val := fun e => hq (Fin.ext e).symm
      simp [State.counted, vectorGet, this]
    · obtain ⟨h1, h2, h3⟩ := (hscan i).pending
      refine ⟨h1, h2, h3, ?_⟩
      split
      case isTrue ho => exact (hscan i).taken (State.mem_boundaryOrder.mpr ho)
      case isFalse ho => exact (hscan i).kept (mt State.mem_boundaryOrder.mp ho)

end Sys2Proof.Machine

/-! # The hold limit -/

namespace Sys2Proof.Machine

set_option Elab.async false

/-- A fabric that differs from one at rest in one surface, the records, the responses and the events. -/
theorem Fabric.rests_of_surface {f g : Fabric} {i : Fin 8} (hr : f.rests = true) (ho : g.offered = f.offered)
    (hq : g.scanQ = f.scanQ) (hc : g.copy = f.copy) (hs : ∀ k, k ≠ i → g.surf k = f.surf k) (hi : g.surfaceRests i = true)
    (hst : ∀ j ∈ f.copy.queue, j.surface = i →
      (((g.surf i).buf j.source).st = .closing ↔ ((f.surf i).buf j.source).st = .closing)) : g.rests = true := by
  obtain ⟨ro, rs, rq, re⟩ := Fabric.rests_iff.mp hr
  refine Fabric.rests_iff.mpr ⟨ho.trans ro, fun k => ?_, ?_, ?_⟩
  · by_cases hk : k = i
    · exact hk ▸ hi
    · rw [Fabric.surfaceRests_congr (hs k hk) fun b => Fabric.jobOf_congr (by rw [hc]) (by rw [hs k hk]) b]
      exact rs k
  · simpa only [Fabric.scansRest, hq] using rq
  · rw [Fabric.engineRests_congr (f := f) hc ?_, re]
    intro j hj
    simp only [Fabric.startable]
    by_cases hk : j.surface = i
    · rw [hk]
      exact decide_eq_decide.mpr (not_congr (hst j hj hk))
    · rw [hs _ hk]

/-- The merge claim of a surface at rest has been presented. -/
theorem Fabric.claim_presented {f : Fabric} {i : Fin 8} (h : f.surfaceRests i = true) :
    (match (f.surf i).mergeClaim with
      | some m => m.presented.isSome
      | none => true) = true := (Bool.and_eq_true_iff.mp h).2

theorem Fabric.chooseFree_of_waiting {f : Fabric} {i : Fin 8} (h : f.surfaceRests i = true) (hl : (f.surf i).lane ≠ [])
    (ha : (f.surf i).life = .attached) (hw : (f.surf i).head = .waiting) : (f.surf i).chooseFree = none := by
  have := (Bool.and_eq_true_iff.mp h).1
  simpa [Fabric.headRests, hl, ha, hw] using this

/-- A surface with an empty lane rests when its merges' claim has been presented. -/
theorem Fabric.surfaceRests_of_lane {f g : Fabric} {i : Fin 8} (h : f.surfaceRests i = true) (hl : (g.surf i).lane = [])
    (hm : (g.surf i).merges = (f.surf i).merges) : g.surfaceRests i = true := by
  have hc : (g.surf i).mergeClaim = (f.surf i).mergeClaim := by
    simp only [Surface.mergeClaim, Surface.firstOutstanding, hm]
  simp only [Fabric.surfaceRests, hl, hc]
  exact Fabric.claim_presented h

/-- A head that waits rests while no buffer is FREE. -/
theorem Fabric.surfaceRests_of_waiting {f g : Fabric} {i : Fin 8} (h : f.surfaceRests i = true) (hw : (g.surf i).head = .waiting)
    (hf : (g.surf i).chooseFree = none) (hm : (g.surf i).merges = (f.surf i).merges) : g.surfaceRests i = true := by
  have hc : (g.surf i).mergeClaim = (f.surf i).mergeClaim := by
    simp only [Surface.mergeClaim, Surface.firstOutstanding, hm]
  simp only [Fabric.surfaceRests, Fabric.headRests, hw, hf, hc, Option.isNone_none, Bool.or_true, Bool.true_and]
  exact Fabric.claim_presented h

/-! ## The expiry (R94) -/

theorem Fabric.answerNow_of_find {f : Fabric} {id : Nat} {r : RespRecord} (h : f.records.find? (fun x => x.id == id) = some r)
    (code : UpCode) : f.answerNow id code = { f with
      records := f.records.filter (fun q => q.id != id), sent := f.sent ++ [{ tag := r.tag, code := code, data := [] }] } := by
  rw [Fabric.answerNow, h]

/-- Requests of a lane answered one after another, each by its own record. -/
theorem Fabric.foldl_answerNow (lane : List LaneReq) (f : Fabric) (hn : (lane.map (fun q => q.id)).Nodup)
    (hr : ∀ q ∈ lane, ∃ r, f.records.find? (fun x => x.id == q.id) = some r ∧ r.tag = q.req.tag) (code : UpCode) :
    lane.foldl (fun g q => g.answerNow q.id code) f = { f with
      records := f.records.filter (fun x => !lane.any (fun q => q.id == x.id)),
      sent := f.sent ++ lane.map (fun q => { tag := q.req.tag, code := code, data := [] }) } := by
  induction lane generalizing f with
  | nil => simp
  | cons q lane ih =>
    obtain ⟨hq, hn⟩ := List.nodup_cons.mp hn
    obtain ⟨r, hf, ht⟩ := hr q List.mem_cons_self
    rw [List.foldl_cons, Fabric.answerNow_of_find hf, ih _ hn fun p hp => ?_]
    · simp only [List.filter_filter, List.any_cons, Bool.not_or, List.map_cons, List.append_assoc, List.singleton_append, ht]
      have : ∀ x : RespRecord, ((!lane.any fun q => q.id == x.id) && x.id != q.id) =
          ((!(q.id == x.id)) && !lane.any fun q => q.id == x.id) := fun x => by
        rw [Bool.and_comm, bne, BEq.comm (a := x.id)]
      simp only [this]
    · obtain ⟨r', hf', ht'⟩ := hr p (List.mem_cons_of_mem _ hp)
      refine ⟨r', ?_, ht'⟩
      have hne : p.id ≠ q.id := fun e => hq (List.mem_map.mpr ⟨p, hp, e⟩)
      rw [List.find?_filter, ← hf']
      congr 1
      funext x
      by_cases hx : x.id = p.id
      · simp [hx, hne]
      · simp [hx]

/-- What an expiry of the hold limit leaves (R94). -/
def Fabric.heldOut (f : Fabric) (env : Env) (i : Fin 8) : Fabric :=
  { f.modSurf i (fun su => { su with lane := [], head := .fresh, holdWait := 0, holdReached := false }) with
    records := f.records.filter (fun x => !(f.surf i).lane.any (fun q => q.id == x.id)),
    sent := f.sent ++ (f.surf i).lane.map (fun q => { tag := q.req.tag, code := .retry, data := [] }),
    events := appendEvent f.events
      { kind := .holdExpired, surface := BitVec.ofNat 8 i.val, pipe := (f.surf i).desc.pipe, buffer := 0xFF, seq := 0,
        detail := BitVec.ofNat 16 (f.surf i).lane.length, stamp := env.now } }

theorem Fabric.surf_heldOut_same (f : Fabric) (env : Env) (i : Fin 8) : (f.heldOut env i).surf i =
    { f.surf i with lane := [], head := .fresh, holdWait := 0, holdReached := false } :=
  f.surf_modSurf_same i fun su => { su with lane := [], head := .fresh, holdWait := 0, holdReached := false }

theorem Fabric.surf_heldOut_other (f : Fabric) (env : Env) {i k : Fin 8} (h : i ≠ k) : (f.heldOut env i).surf k = f.surf k :=
  f.surf_modSurf_other (fun su => { su with lane := [], head := .fresh, holdWait := 0, holdReached := false }) h

/-- A part at rest of which a lane has been answered rests again. -/
theorem Fabric.rests_heldOut {f : Fabric} (hr : f.rests = true) (env : Env) (i : Fin 8) : (f.heldOut env i).rests = true := by
  refine Fabric.rests_of_surface hr rfl rfl rfl (fun k hk => f.surf_heldOut_other env (Ne.symm hk)) ?_ ?_
  · refine Fabric.surfaceRests_of_lane ((Fabric.rests_iff.mp hr).2.1 i) ?_ ?_ <;> rw [Fabric.surf_heldOut_same]
  · intro j _ _
    rw [Fabric.surf_heldOut_same]
    rfl

theorem pipe_byte (b : Byte) : idByte (some b.toNat) = b := BitVec.eq_of_toNat_eq (by simp [idByte])

theorem Fabric.expireHold_eq {f : Fabric} (env : Env) {i : Fin 8} (hn : ((f.surf i).lane.map (fun q => q.id)).Nodup)
    (hr : ∀ q ∈ (f.surf i).lane, ∃ r, f.records.find? (fun x => x.id == q.id) = some r ∧ r.tag = q.req.tag) :
    f.expireHold env i = f.heldOut env i := by
  have pipe : idByte (some (f.surf i).desc.pipe.toNat) = (f.surf i).desc.pipe := pipe_byte _
  simp only [Fabric.expireHold, Fabric.heldOut, Fabric.foldl_answerNow _ f hn hr]
  simp only [Fabric.logSurf, Fabric.log, Fabric.modSurf, Fabric.surf, vectorGet, Vector.getElem_set_self, Vector.set_set] at pipe ⊢
  rw [pipe]
  rfl

/-! ## A boundary with one surface on its pipe -/

theorem State.boundary_single {s : State} {p : Fin 4} {i : Fin 8} (h : (s.pipes.get p).enabled = true)
    (ho : s.fab.onPipe p = [i]) : s.boundary p none = ((s.counted p).onFabric (fun env f =>
      (Fabric.settleSurface env (f.boundaryRule env i ((s.pipes.get p).counter + 1)) i).modSurf i Surface.latchScanout)).finish := by
  rw [State.boundary_enabled h, State.boundaryOrder, ho, show pickOrder 8 (Config.surfaceOrder s.freeCount) [i] = [i] from rfl]
  simp only [State.deliver, Fabric.flips, Fabric.latches, List.foldl_cons, List.foldl_nil]

theorem Fabric.flipSelect_of_empty {f : Fabric} {i : Fin 8} (h : (f.surf i).present = []) (env : Env) (n : Word) :
    f.flipSelect env i n = f := by
  simp only [Fabric.flipSelect, h, List.getLast?_nil]
  split
  · rfl
  · split <;> rfl

theorem Fabric.closeOnBoundary_of_none {f : Fabric} {i : Fin 8} (h : (f.surf i).filling = none) (env : Env) :
    f.closeOnBoundary env i = f := by
  simp only [Fabric.closeOnBoundary, h]

theorem Fabric.holdStep_of_waiting {f : Fabric} {i : Fin 8} (h : (f.surf i).head = .waiting) (env : Env) :
    f.holdStep env i = if (f.surf i).countHold.holdReached = true then (f.modSurf i Surface.countHold).expireHold env i
      else f.modSurf i Surface.countHold := by
  rw [Fabric.holdStep, if_pos h]
  simp only [Fabric.surf_modSurf_same]

/-- A surface as a boundary's ageing step leaves it while its head waits. -/
def Surface.agedWait (su : Surface) : Surface := { su with
  bufs := su.bufs.map (fun x => if x.st = .shown then { x with age := min 255 (x.age + 1) } else x)
  holdWait := min 15 (su.holdWait + 1)
  holdReached := decide (su.desc.holdLimit ≠ 0) && decide (su.desc.holdLimit.toNat ≤ min 15 (su.holdWait + 1)) }

theorem Surface.agedWait_states (su : Surface) : su.agedWait.states = su.states :=
  Surface.states_map (su := su) fun x => by split <;> rfl

theorem Surface.filling_congr {su su' : Surface} (h : su'.states = su.states) : su'.filling = su.filling := by
  have : ∀ v : Surface, v.filling = v.states.findIdx? (fun st => decide (st = .filling)) := fun v => by
    rw [Surface.states, List.findIdx?_map]
    rfl
  rw [this, this, h]

theorem Surface.chooseFree_isNone_congr {su su' : Surface} (h : su'.states = su.states) (hn : su.chooseFree = none) :
    su'.chooseFree = none := by
  rw [Surface.chooseFree_none] at hn ⊢
  have key : ∀ v : Surface, (∀ r ∈ v.bufs, r.st ≠ .free) ↔ .free ∉ v.states := fun v => by simp [Surface.states]
  exact (key su').mpr (h ▸ (key su).mp hn)

theorem Surface.chooseFree_isNone {su su' : Surface} (h : su'.states = su.states) :
    su'.chooseFree.isNone = su.chooseFree.isNone := by
  refine Bool.eq_iff_iff.mpr ?_
  rw [Option.isNone_iff_eq_none, Option.isNone_iff_eq_none]
  exact ⟨Surface.chooseFree_isNone_congr h.symm, Surface.chooseFree_isNone_congr h⟩

/-- The boundary rule of a surface whose head waits, with nothing to present (R94, R116). -/
theorem Fabric.boundaryRule_of_waiting {f : Fabric} {i : Fin 8} (hw : (f.surf i).head = .waiting) (hb : BuffersSafe (f.surf i))
    (hp : (f.surf i).present = []) (hn : ((f.surf i).lane.map (fun q => q.id)).Nodup)
    (hr : ∀ q ∈ (f.surf i).lane, ∃ r, f.records.find? (fun x => x.id == q.id) = some r ∧ r.tag = q.req.tag) (env : Env) (n : Word) :
    f.boundaryRule env i n = if (f.surf i).agedWait.holdReached = true then (f.modSurf i Surface.agedWait).heldOut env i
      else f.modSurf i Surface.agedWait := by
  have hsurf : (f.modSurf i Surface.agedWait).surf i = (f.surf i).agedWait := f.surf_modSurf_same i _
  have haged : (f.surf i).ageShown.countHold = (f.surf i).agedWait := by
    rw [Surface.ageShown_eq hb.2.1]
    rfl
  have hstep : (f.modSurf i Surface.ageShown).holdStep env i =
      if (f.surf i).agedWait.holdReached = true then (f.modSurf i Surface.agedWait).heldOut env i
      else f.modSurf i Surface.agedWait := by
    have hmod : (f.modSurf i Surface.ageShown).modSurf i Surface.countHold = f.modSurf i Surface.agedWait := by
      rw [Fabric.modSurf_modSurf]
      exact Fabric.modSurf_congr f i haged
    have hhead : ((f.modSurf i Surface.ageShown).surf i).head = .waiting := by
      rw [Fabric.surf_modSurf_same, Surface.ageShown_eq hb.2.1]
      exact hw
    rw [Fabric.holdStep_of_waiting hhead, hmod, Fabric.surf_modSurf_same, haged, Fabric.expireHold_eq env]
    · rw [hsurf]
      exact hn
    · rw [hsurf]
      exact hr
  have hfill : (f.surf i).agedWait.filling = none :=
    (Surface.filling_congr (f.surf i).agedWait_states).trans (Surface.filling_of_waiting hb hw)
  have key : ∀ g : Fabric, (g.surf i).present = [] → (g.surf i).filling = none →
      (g.flipSelect env i n).closeOnBoundary env i = g := fun g h1 h2 => by
    rw [Fabric.flipSelect_of_empty h1, Fabric.closeOnBoundary_of_none h2]
  have hrule : f.boundaryRule env i n =
      (((f.modSurf i Surface.ageShown).holdStep env i).flipSelect env i n).closeOnBoundary env i := rfl
  rw [hrule, hstep]
  split
  · refine key _ ?_ ?_
    · rw [Fabric.surf_heldOut_same, hsurf]
      exact hp
    · rw [Fabric.surf_heldOut_same, hsurf]
      exact hfill
  · refine key _ ?_ ?_
    · rw [hsurf]
      exact hp
    · rw [hsurf]
      exact hfill

theorem Fabric.surfaceRests_latch {f : Fabric} {i : Fin 8} (h : f.surfaceRests i = true) :
    (f.modSurf i Surface.latchScanout).surfaceRests i = true := by
  have hs : (f.modSurf i Surface.latchScanout).surf i = (f.surf i).latchScanout := f.surf_modSurf_same i _
  have hj : (f.modSurf i Surface.latchScanout).jobOf i = f.jobOf i := by
    funext b
    exact f.jobOf_modSurf i i b rfl
  have ready : (f.modSurf i Surface.latchScanout).headReady i = f.headReady i := by
    funext m
    simp only [Fabric.headReady, Fabric.stripesDone, hs, hj]
    rfl
  have choose : (f.surf i).latchScanout.chooseFree.isNone = (f.surf i).chooseFree.isNone := Surface.chooseFree_isNone rfl
  simp only [Fabric.surfaceRests, Fabric.headRests, hs, ready, choose] at h ⊢
  exact h

/-- A part that rests after the boundary rule is done with the boundary but for the latches. -/
theorem State.boundary_of_rests {s : State} {p : Fin 4} {i : Fin 8} (h : (s.pipes.get p).enabled = true)
    (ho : s.fab.onPipe p = [i]) {g : Fabric} (hg : s.fab.boundaryRule (s.counted p).env i ((s.pipes.get p).counter + 1) = g)
    (hr : g.rests = true) : s.boundary p none = { s.counted p with fab := g.modSurf i Surface.latchScanout } := by
  have hlatch : (g.modSurf i Surface.latchScanout).rests = true :=
    Fabric.rests_modSurf hr (Fabric.surfaceRests_latch ((Fabric.rests_iff.mp hr).2.1 i)) fun _ _ _ => Iff.rfl
  rw [State.boundary_single h ho]
  have he : (s.counted p).onFabric (fun env f =>
      (Fabric.settleSurface env (f.boundaryRule env i ((s.pipes.get p).counter + 1)) i).modSurf i Surface.latchScanout) =
      { s.counted p with fab := g.modSurf i Surface.latchScanout } := by
    simp only [State.onFabric]
    rw [show (s.counted p).fab = s.fab from rfl, hg, Fabric.settleSurface_of_rests _ _ _ ((Fabric.rests_iff.mp hr).2.1 i)]
  rw [he, State.finish_of_rest { s.counted p with fab := g.modSurf i Surface.latchScanout } hlatch]

theorem Fabric.rests_agedWait {f : Fabric} {i : Fin 8} (hr : f.rests = true) (hl : (f.surf i).lane ≠ [])
    (ha : (f.surf i).life = .attached) (hw : (f.surf i).head = .waiting) : (f.modSurf i Surface.agedWait).rests = true := by
  have hi := (Fabric.rests_iff.mp hr).2.1 i
  have hs : (f.modSurf i Surface.agedWait).surf i = (f.surf i).agedWait := f.surf_modSurf_same i _
  refine Fabric.rests_modSurf hr (Fabric.surfaceRests_of_waiting hi ?_ ?_ ?_) fun j _ _ => ?_
  · rw [hs]
    exact hw
  · rw [hs]
    exact Surface.chooseFree_isNone_congr (f.surf i).agedWait_states (Fabric.chooseFree_of_waiting hi hl ha hw)
  · rw [hs]
    rfl
  · rw [Surface.st_buf, Surface.st_buf, Surface.agedWait_states]

/-- Settles O60. -/
theorem holdLimitExpires : Obligations.HoldLimitExpires := by
  intro s i hr hl hw hlane hn hrec retries expired
  have hsurf : s.fab.surf i = s.surf i := rfl
  have hrest := (Fabric.rests_iff.mp hr).2.1 i
  refine ⟨fun hreached => ?due, fun hreached => ?early, fun p hen hp hpres hsafe => ?boundary⟩
  case due =>
    have hrests := Fabric.rests_heldOut hr s.env i
    have hdue : s.holdDue i = true := by simp [State.holdDue, hl, hw, hreached]
    have he : s.onFabric (fun env f => f.expireHold env i) = { s with fab := s.fab.heldOut s.env i } :=
      congrArg (fun f : Fabric => ({ s with fab := f } : State)) (Fabric.expireHold_eq s.env hn hrec)
    refine congrArg Host.Outcome.next ?_
    rw [if_pos hdue, he, State.finish_of_rest { s with fab := s.fab.heldOut s.env i } hrests]
    rfl
  case early =>
    refine congrArg Host.Outcome.next (if_neg ?_)
    simp [State.holdDue, hreached]
  case boundary =>
    have hrule := Fabric.boundaryRule_of_waiting hw hsafe hpres hn hrec (s.counted p).env ((s.pipes.get p).counter + 1)
    have haged := Fabric.rests_agedWait hr hlane hl hw
    have hcount : (s.surf i).agedWait.holdReached = true ↔ (s.surf i).desc.holdLimit.toNat ≠ 0 ∧
        (s.surf i).desc.holdLimit.toNat ≤ min 15 ((s.surf i).holdWait + 1) := by
      have h0 : (s.surf i).desc.holdLimit = 0 ↔ (s.surf i).desc.holdLimit.toNat = 0 :=
        ⟨fun h => by rw [h]; rfl, fun h => BitVec.eq_of_toNat_eq h⟩
      simp only [Surface.agedWait, Bool.and_eq_true, decide_eq_true_eq, ne_eq, h0]
    have hsurf : (s.fab.modSurf i Surface.agedWait).surf i = (s.surf i).agedWait := s.fab.surf_modSurf_same i _
    refine ⟨s.boundary p none, rfl, ?_⟩
    by_cases h : (s.surf i).agedWait.holdReached = true
    · rw [if_pos (hcount.mp h), State.boundary_of_rests hen hp (hrule.trans (if_pos h)) (Fabric.rests_heldOut haged _ i)]
      have hfin : ((((s.fab.modSurf i Surface.agedWait).heldOut (s.counted p).env i).modSurf i Surface.latchScanout).surf i) =
          { (s.surf i).agedWait with lane := [], head := .fresh, holdWait := 0, holdReached := false }.latchScanout := by
        rw [Fabric.surf_modSurf_same, Fabric.surf_heldOut_same, hsurf]
      refine ⟨congrArg Surface.lane hfin, congrArg Surface.head hfin, congrArg Surface.holdWait hfin,
        congrArg Surface.holdReached hfin, ?_, ?_⟩
      · change s.fab.sent ++ ((s.fab.modSurf i Surface.agedWait).surf i).lane.map _ = _
        rw [hsurf]
        rfl
      · change appendEvent s.fab.events _ = _
        rw [hsurf]
        rfl
    · rw [if_neg (mt hcount.mpr h), State.boundary_of_rests hen hp (hrule.trans (if_neg h)) haged]
      have hfin : ((s.fab.modSurf i Surface.agedWait).modSurf i Surface.latchScanout).surf i =
          (s.surf i).agedWait.latchScanout := by
        rw [Fabric.surf_modSurf_same, hsurf]
      exact ⟨(congrArg Surface.lane hfin).trans rfl, (congrArg Surface.head hfin).trans hw, congrArg Surface.holdWait hfin,
        (congrArg Surface.holdReached hfin).trans (Bool.eq_false_iff.mpr h), rfl, rfl⟩

end Sys2Proof.Machine

/-! # Stored places and runs -/

namespace Sys2Proof.Machine

set_option Elab.async false

/-! ## Stored places (R43, R44) -/

theorem storedAddr_eq (d : Descriptor) (base sx sy : Nat) :
    storedAddr d base (sx, sy) = base + sy * (64 * d.pitch.toNat) + 4 * sx := by
  simp only [storedAddr, Descriptor.pitchBytes, Nat.mul_comm 64]

theorem storedPos_eq (d : Descriptor) (o : Orient) (lx ly : Nat) : storedPos d o lx ly =
    ((if o.mirrorX then d.w - 1 - (if o.exchange then ly else lx) else if o.exchange then ly else lx),
      if o.mirrorY then d.h - 1 - (if o.exchange then lx else ly) else if o.exchange then lx else ly) := rfl

/-- A logical pixel lies on a stored row of the surface. -/
theorem storedPos_lt {d : Descriptor} {o : Orient} {lx ly : Nat} (hx : lx < d.lwOf o) (hy : ly < d.lhOf o) :
    (storedPos d o lx ly).1 < d.w ∧ (storedPos d o lx ly).2 < d.h := by
  rw [storedPos_eq]
  cases he : o.exchange <;> simp only [Descriptor.lwOf, Descriptor.lhOf, he, if_true, Bool.false_eq_true, if_false] at hx hy ⊢ <;>
    constructor <;> split <;> omega

/-- Two logical pixels with one stored position are the same. -/
theorem storedPos_injective {d : Descriptor} {o : Orient} {lx ly mx my : Nat} (hlx : lx < d.lwOf o) (hly : ly < d.lhOf o)
    (hmx : mx < d.lwOf o) (hmy : my < d.lhOf o) (h : storedPos d o lx ly = storedPos d o mx my) : lx = mx ∧ ly = my := by
  rw [storedPos_eq, storedPos_eq, Prod.mk.injEq] at h
  obtain ⟨h1, h2⟩ := h
  cases he : o.exchange <;>
    simp only [Descriptor.lwOf, Descriptor.lhOf, he, if_true, Bool.false_eq_true, if_false] at hlx hly hmx hmy h1 h2 <;>
    cases hX : o.mirrorX <;> cases hY : o.mirrorY <;>
    simp only [hX, hY, if_true, Bool.false_eq_true, if_false] at h1 h2 <;> omega

/-- Rows of `pitch` bytes: a place in a row and its row are found again from their sum. -/
theorem row_place_injective {pitch sx sy tx ty : Nat} (hx : 4 * sx + 4 ≤ pitch) (hx' : 4 * tx + 4 ≤ pitch)
    (h : sy * pitch + 4 * sx = ty * pitch + 4 * tx) : sx = tx ∧ sy = ty := by
  have hy : sy = ty := by
    have h1 : (4 * sx + pitch * sy) / pitch = sy := by rw [Nat.add_mul_div_left _ _ (by omega), Nat.div_eq_of_lt (by omega)]; omega
    have h2 : (4 * tx + pitch * ty) / pitch = ty := by rw [Nat.add_mul_div_left _ _ (by omega), Nat.div_eq_of_lt (by omega)]; omega
    rw [← h1, ← h2, Nat.mul_comm pitch sy, Nat.mul_comm pitch ty, Nat.add_comm, h, Nat.add_comm]
  subst hy
  omega

theorem row_place_bound {pitch sx sy h : Nat} (hx : 4 * sx + 4 ≤ pitch) (hy : sy < h) : sy * pitch + 4 * sx + 4 ≤ pitch * h := by
  have h1 : pitch * (sy + 1) ≤ pitch * h := Nat.mul_le_mul_left pitch hy
  rw [Nat.mul_add, Nat.mul_one, Nat.mul_comm pitch sy] at h1
  omega

/-! ## The pixels of a DIRECT request (R46, R47) -/

theorem pixelBytes_get {r : UpRequest} {first bpp n j : Nat} (hj : j < bpp) (v : Byte) :
    (pixelBytes r first bpp n)[j]? = some (some v) ↔
      first ≤ n * bpp + j ∧ n * bpp + j < first + r.len ∧
        ∃ x, r.bytes[n * bpp + j - first]? = some x ∧ x.enabled = true ∧ x.value = v := by
  simp only [pixelBytes, List.getElem?_map, List.getElem?_range hj, Option.map_some, Option.some.injEq]
  by_cases h1 : first ≤ n * bpp + j
  · rw [if_pos h1]
    cases hx : r.bytes[n * bpp + j - first]? with
    | none => simp
    | some x =>
      simp only [Option.some.injEq, exists_eq_left']
      by_cases h2 : x.enabled = true ∧ n * bpp + j - first < r.len
      · rw [if_pos h2]
        simp only [Option.some.injEq]
        exact ⟨fun h => ⟨h1, by omega, h2.1, h⟩, fun h => h.2.2.2⟩
      · rw [if_neg h2]
        refine ⟨fun h => (by cases h), fun ⟨_, h3, h4, _⟩ => absurd ⟨h4, by omega⟩ h2⟩
  · rw [if_neg h1]
    exact ⟨fun h => (by cases h), fun h => absurd h.1 h1⟩

theorem firstTimes_append (l : List Nat) (k : Nat) :
    firstTimes (l ++ [k]) = if k ∈ firstTimes l then firstTimes l else firstTimes l ++ [k] := by
  rw [firstTimes, List.foldl_append]
  rfl

theorem mem_firstTimes {l : List Nat} {k : Nat} : k ∈ firstTimes l ↔ k ∈ l := by
  induction l using List.reverseRecOn with
  | nil => rfl
  | append_singleton l x ih =>
    rw [firstTimes_append]
    split
    case isTrue h =>
      rw [ih, List.mem_append, List.mem_singleton]
      refine ⟨Or.inl, fun h' => h'.elim id fun e => ?_⟩
      subst e
      exact (ih).mp h
    case isFalse h => rw [List.mem_append, List.mem_append, ih]

theorem directStripes_eq (r : UpRequest) (ps : List PixelMap) : directStripes r.kind ps =
    firstTimes ((ps.filter (fun p => decide (r.kind = .read ∨ ∃ v ∈ p.bytes, v ≠ none))).map (fun p => p.stripe)) := by
  cases hk : r.kind with
  | read => simp [directStripes]
  | write =>
    simp only [directStripes]
    congr 2
    refine List.filter_congr fun p _ => Bool.eq_iff_iff.mpr ?_
    simp [List.any_eq_true, Option.isSome_iff_ne_none]

/-- Settles O15. -/
theorem storedPlacesDistinct : Obligations.StoredPlacesDistinct := by
  refine ⟨fun d o lx ly => ?position, fun d base sx sy => storedAddr_eq d base sx sy, ?direct, ?mapping, ⟨rfl, fun l k => ?_⟩,
    fun d o base h1 h2 => ⟨fun lx ly hx hy => ?inside, fun lx ly mx my hlx hly hmx hmy h => ?distinct⟩⟩
  case position =>
    rw [storedPos_eq]
    cases o.exchange <;> cases o.mirrorX <;> cases o.mirrorY <;> rfl
  case direct =>
    intro d l base r first h1
    refine ⟨?_, fun n => ?_⟩
    · simp only [directPixels]
      rw [List.range'_eq_map_range, List.map_map]
      rfl
    refine ⟨fun hk => by simp only [directPixel, hk], fun hk => ?_, rfl, rfl, rfl⟩
    simp only [directPixel, hk]
    exact ⟨by simp [pixelBytes], fun j v hj => pixelBytes_get hj v⟩
  case mapping =>
    intro su b x l r hl hs hb ps
    simp only [Surface.mapHead, hl, Option.getD_some, hs, Surface.buf_of_some hb, directStripes_eq]
    rfl
  case inside =>
    obtain ⟨hsx, hsy⟩ := storedPos_lt hx hy
    have hp : 4 * d.w ≤ d.pitchBytes := by simpa [Descriptor.check2] using h2
    have := row_place_bound (pitch := d.pitchBytes) (sx := (storedPos d o lx ly).1) (by omega) hsy
    refine ⟨hsx, hsy, ?_, ?_⟩ <;> simp only [storedAddr, Descriptor.regionSize] <;> omega
  case distinct =>
    obtain ⟨hsx, hsy⟩ := storedPos_lt hlx hly
    obtain ⟨htx, hty⟩ := storedPos_lt hmx hmy
    have hp : 4 * d.w ≤ d.pitchBytes := by simpa [Descriptor.check2] using h2
    simp only [storedAddr] at h
    have hsum : (storedPos d o lx ly).2 * d.pitchBytes + 4 * (storedPos d o lx ly).1 =
        (storedPos d o mx my).2 * d.pitchBytes + 4 * (storedPos d o mx my).1 := by omega
    obtain ⟨ex, ey⟩ := row_place_injective (sx := (storedPos d o lx ly).1) (sy := (storedPos d o lx ly).2)
      (tx := (storedPos d o mx my).1) (ty := (storedPos d o mx my).2) (pitch := d.pitchBytes) (by omega) (by omega) hsum
    exact storedPos_injective hlx hly hmx hmy (Prod.ext ex ey)
  case _ => simp only [firstTimes_append, mem_firstTimes]

/-! ## Runs (R48) -/

theorem joinsRun_iff {run : Run} {p : Placed} : joinsRun run p = true ↔
    ∃ q, run.getLast? = some q ∧ p.addr = q.addr + 4 ∧ run.length < 64 ∧ p.addr % 4096 ≠ 0 := by
  unfold joinsRun
  cases run.getLast? with
  | none => simp
  | some q => simp [and_assoc]

/-- A run that the converter may have: 1 to 64 pixels at addresses rising by 4, none but the first at a multiple of 4096. -/
def GoodRun (run : Run) : Prop := run ≠ [] ∧ run.length ≤ 64 ∧
  ∀ k, k + 1 < run.length → ∃ p q, run[k]? = some p ∧ run[k + 1]? = some q ∧ q.addr = p.addr + 4 ∧ q.addr % 4096 ≠ 0

theorem goodRun_single (p : Placed) : GoodRun [p] :=
  ⟨by simp, by simp, fun k hk => by simp at hk⟩

theorem GoodRun.append {run : Run} (h : GoodRun run) {p : Placed} (hj : joinsRun run p = true) : GoodRun (run ++ [p]) := by
  obtain ⟨q, hq, ha, hl, h4⟩ := joinsRun_iff.mp hj
  obtain ⟨hne, -, hk⟩ := h
  refine ⟨by simp, by simp; omega, fun k hlt => ?_⟩
  simp only [List.length_append, List.length_singleton] at hlt
  by_cases hlast : k + 1 < run.length
  · obtain ⟨a, b, h1, h2, h3⟩ := hk k hlast
    exact ⟨a, b, by rw [List.getElem?_append_left (by omega), h1], by rw [List.getElem?_append_left hlast, h2], h3⟩
  · have he : k + 1 = run.length := by omega
    refine ⟨q, p, ?_, ?_, ha, h4⟩
    · rw [List.getElem?_append_left (by omega), ← hq, List.getLast?_eq_getElem?, ← he]
      rfl
    · rw [he, List.getElem?_concat_length]

theorem gatherRuns_cons (run : Run) (p : Placed) (ps : List Placed) (h : run ≠ []) : gatherRuns run (p :: ps) =
    if joinsRun run p = true then gatherRuns (run ++ [p]) ps else run :: gatherRuns [p] ps := by
  rw [gatherRuns, if_neg h]

/-- Runs gathered behind a current run: it goes on, and the others follow. -/
theorem gatherRuns_spec (ps : List Placed) (run : Run) (h : GoodRun run) :
    (gatherRuns run ps).flatten = run ++ ps ∧ (∀ q ∈ gatherRuns run ps, GoodRun q) ∧
      (∃ first rest, gatherRuns run ps = first :: rest ∧ run <+: first) ∧
      ∀ n a b p, (gatherRuns run ps)[n]? = some a → (gatherRuns run ps)[n + 1]? = some b → b.head? = some p →
        ¬ joinsRun a p = true := by
  induction ps generalizing run with
  | nil =>
    simp only [gatherRuns, h.1, if_false]
    refine ⟨by simp, by simpa using h, ⟨run, [], rfl, List.prefix_rfl⟩, fun n a b p _ hb => by simp at hb⟩
  | cons p ps ih =>
    rw [gatherRuns_cons run p ps h.1]
    split
    case isTrue hj =>
      obtain ⟨h1, h2, ⟨first, rest, h3, h4⟩, h5⟩ := ih (run ++ [p]) (h.append hj)
      exact ⟨by rw [h1]; simp, h2, ⟨first, rest, h3, (List.prefix_append _ _).trans h4⟩, h5⟩
    case isFalse hj =>
      obtain ⟨h1, h2, ⟨first, rest, h3, h4⟩, h5⟩ := ih [p] (goodRun_single p)
      refine ⟨by rw [List.flatten_cons, h1]; rfl, ?_, ⟨run, _, rfl, List.prefix_rfl⟩, fun n a b q ha hb hq => ?_⟩
      · exact fun q hq => (List.mem_cons.mp hq).elim (fun e => e ▸ h) (h2 q)
      · cases n with
        | zero =>
          rw [List.getElem?_cons_zero] at ha
          rw [List.getElem?_cons_succ, h3, List.getElem?_cons_zero] at hb
          obtain rfl := Option.some.inj ha
          obtain rfl := Option.some.inj hb
          obtain ⟨t, rfl⟩ := h4
          obtain rfl : p = q := by simpa using hq
          exact hj
        | succ n => exact h5 n a b q (by simpa using ha) (by simpa using hb) hq

/-! ## The converter's pixels (R65 to R67, R72) -/

theorem slotIs_iff {slot : Option Slot} {px : PixelRef} {b : Nat} :
    slotIs slot px b = true ↔ ∃ t, slot = some t ∧ t.px = px ∧ t.buf = b := by
  cases slot <;> simp [slotIs]

theorem all_isSome_iff {α : Type} (l : List (Option α)) : l.all Option.isSome = true ↔ ∀ x ∈ l, x ≠ none := by
  simp only [List.all_eq_true, Option.isSome_iff_ne_none]

theorem all_isNone_iff {α : Type} (l : List (Option α)) : l.all Option.isNone = true ↔ ∀ x ∈ l, x = none := by
  simp only [List.all_eq_true, Option.isNone_iff_eq_none]

theorem closeRun_part {slot : Option Slot} {run q : Run} {todo : List PixelMap} (hrun : run = [] ∨ GoodRun run)
    (h : (closeRun slot run todo).part = some q) : GoodRun q := by
  simp only [closeRun] at h
  split at h
  · cases h
  · next hne => exact Option.some.inj h ▸ hrun.resolve_left hne

theorem goodRun_extends {run : Run} {p : Placed} (hrun : run = [] ∨ GoodRun run)
    (h : run = [] ∨ joinsRun run p = true) : GoodRun (run ++ [p]) := by
  by_cases he : run = []
  · subst he
    exact goodRun_single p
  · exact (hrun.resolve_left he).append (h.resolve_left he)

section
variable (b : Nat) (slot : Option Slot) (run : Run) {p : PixelMap} (ps : List PixelMap)

theorem handleWrite_full (h : p.bytes.all Option.isSome = true) : handleWrite b slot run (p :: ps) =
    if run = [] ∨ joinsRun run (p.place p.bytes) = true then
      handleWrite b (if slotIs slot p.px b then none else slot) (run ++ [p.place p.bytes]) ps
    else closeRun slot run (p :: ps) := by
  rw [handleWrite.eq_def]
  exact if_pos h

theorem handleWrite_skips (h : ¬ p.bytes.all Option.isSome = true) (he : p.bytes.all Option.isNone = true) :
    handleWrite b slot run (p :: ps) = if run = [] then handleWrite b slot [] ps else closeRun slot run (p :: ps) := by
  rw [handleWrite.eq_def]
  exact (if_neg h).trans (if_pos he)

section
variable (h : ¬ p.bytes.all Option.isSome = true) (he : ¬ p.bytes.all Option.isNone = true)
include h he

theorem handleWrite_takes : handleWrite b none run (p :: ps) =
    if run = [] then handleWrite b (some (p.toSlot b p.bytes)) [] ps else closeRun none run (p :: ps) := by
  rw [handleWrite.eq_def]
  exact (if_neg h).trans (if_neg he)

theorem handleWrite_fills {t : Slot} (ht : slotIs (some t) p.px b = true)
    (ha : (overlay t.bytes p.bytes).all Option.isSome = true) : handleWrite b (some t) run (p :: ps) =
    if run = [] ∨ joinsRun run (p.place (overlay t.bytes p.bytes)) = true then
      handleWrite b none (run ++ [p.place (overlay t.bytes p.bytes)]) ps
    else closeRun (some t) run (p :: ps) := by
  rw [handleWrite.eq_def]
  exact (if_neg h).trans ((if_neg he).trans ((if_pos ht).trans (if_pos ha)))

theorem handleWrite_overlays {t : Slot} (ht : slotIs (some t) p.px b = true)
    (ha : ¬ (overlay t.bytes p.bytes).all Option.isSome = true) : handleWrite b (some t) run (p :: ps) =
    if run = [] then handleWrite b (some { t with bytes := overlay t.bytes p.bytes }) [] ps
    else closeRun (some t) run (p :: ps) := by
  rw [handleWrite.eq_def]
  exact (if_neg h).trans ((if_neg he).trans ((if_pos ht).trans (if_neg ha)))

theorem handleWrite_spills {t : Slot} (ht : ¬ slotIs (some t) p.px b = true) : handleWrite b (some t) run (p :: ps) =
    if run = [] then { slot := some (p.toSlot b p.bytes), spilled := some t, part := none, todo := ps }
    else closeRun (some t) run (p :: ps) := by
  rw [handleWrite.eq_def]
  exact (if_neg h).trans ((if_neg he).trans (if_neg ht))

end

end

theorem handleWrite_part (b : Nat) {q : Run} (ps : List PixelMap) (slot : Option Slot) (run : Run)
    (hrun : run = [] ∨ GoodRun run) (h : (handleWrite b slot run ps).part = some q) : GoodRun q := by
  induction ps generalizing slot run with
  | nil => exact closeRun_part hrun h
  | cons p ps ih =>
    by_cases hf : p.bytes.all Option.isSome = true
    · rw [handleWrite_full b slot run ps hf] at h
      split at h
      case isTrue hj => exact ih _ _ (.inr (goodRun_extends hrun hj)) h
      case isFalse => exact closeRun_part hrun h
    by_cases he : p.bytes.all Option.isNone = true
    · rw [handleWrite_skips b slot run ps hf he] at h
      split at h
      · exact ih _ _ (.inl rfl) h
      · exact closeRun_part hrun h
    cases slot with
    | none =>
      rw [handleWrite_takes b run ps hf he] at h
      split at h
      · exact ih _ _ (.inl rfl) h
      · exact closeRun_part hrun h
    | some t =>
      by_cases ht : slotIs (some t) p.px b = true
      · by_cases ha : (overlay t.bytes p.bytes).all Option.isSome = true
        · rw [handleWrite_fills b run ps hf he ht ha] at h
          split at h
          case isTrue hj => exact ih _ _ (.inr (goodRun_extends hrun hj)) h
          case isFalse => exact closeRun_part hrun h
        · rw [handleWrite_overlays b run ps hf he ht ha] at h
          split at h
          · exact ih _ _ (.inl rfl) h
          · exact closeRun_part hrun h
      · rw [handleWrite_spills b run ps hf he ht] at h
        split at h
        · cases h
        · exact closeRun_part hrun h

theorem handleRead_part (b : Nat) {q : Run} (ps : List PixelMap) (slot : Option Slot) (run : Run)
    (hrun : run = [] ∨ GoodRun run) (h : (handleRead b slot run ps).part = some q) : GoodRun q := by
  induction ps generalizing slot run with
  | nil => exact closeRun_part hrun h
  | cons p ps ih =>
    rw [handleRead] at h
    split at h
    case isTrue =>
      split at h
      · cases h
      · exact closeRun_part hrun h
    case isFalse =>
      split at h
      case isTrue hj => exact ih _ _ (.inr (goodRun_extends hrun hj)) h
      case isFalse => exact closeRun_part hrun h

/-- A pixel that closes an open run leaves it as the part, with nothing handled. -/
theorem closeRun_open (slot : Option Slot) {run : Run} (h : run ≠ []) (todo : List PixelMap) :
    closeRun slot run todo = { slot := slot, spilled := none, part := some run, todo := todo } := by
  rw [closeRun, if_neg h]

/-- R66: what closes an open run. -/
theorem handleWrite_closes (b : Nat) (slot : Option Slot) {run : Run} (p : PixelMap) (ps : List PixelMap) (hne : run ≠ [])
    (hfull : p.bytes.all Option.isSome = true → ¬ joinsRun run (p.place p.bytes) = true)
    (hsum : ¬ p.bytes.all Option.isSome = true → ¬ p.bytes.all Option.isNone = true → ∀ t, slot = some t →
      slotIs (some t) p.px b = true → (overlay t.bytes p.bytes).all Option.isSome = true →
      ¬ joinsRun run (p.place (overlay t.bytes p.bytes)) = true) :
    handleWrite b slot run (p :: ps) = { slot := slot, spilled := none, part := some run, todo := p :: ps } := by
  by_cases hf : p.bytes.all Option.isSome = true
  · rw [handleWrite_full b slot run ps hf, if_neg (not_or.mpr ⟨hne, hfull hf⟩), closeRun_open slot hne]
  by_cases he : p.bytes.all Option.isNone = true
  · rw [handleWrite_skips b slot run ps hf he, if_neg hne, closeRun_open slot hne]
  cases slot with
  | none => rw [handleWrite_takes b run ps hf he, if_neg hne, closeRun_open _ hne]
  | some t =>
    by_cases ht : slotIs (some t) p.px b = true
    · by_cases ha : (overlay t.bytes p.bytes).all Option.isSome = true
      · rw [handleWrite_fills b run ps hf he ht ha, if_neg (not_or.mpr ⟨hne, hsum hf he t rfl ht ha⟩), closeRun_open _ hne]
      · rw [handleWrite_overlays b run ps hf he ht ha, if_neg hne, closeRun_open _ hne]
    · rw [handleWrite_spills b run ps hf he ht, if_neg hne, closeRun_open _ hne]

/-- Settles O16. -/
theorem runsFormed : Obligations.RunsFormed := by
  refine ⟨fun ps => ?gather, fun b slot ps run => ⟨handleWrite_part b ps slot [] (.inl rfl),
    handleRead_part b ps slot [] (.inl rfl), rfl, rfl⟩, ?pixel⟩
  case gather =>
    cases ps with
    | nil => exact ⟨rfl, fun run h => (List.not_mem_nil h).elim, fun n a b p ha => by simp [gatherRuns] at ha⟩
    | cons p ps =>
      have hg : gatherRuns [] (p :: ps) = gatherRuns [p] ps := by rw [gatherRuns, if_pos rfl]
      rw [hg]
      obtain ⟨h1, h2, -, h3⟩ := gatherRuns_spec ps [p] (goodRun_single p)
      exact ⟨h1, h2, fun n a b q ha hb hq hj => h3 n a b q ha hb hq (joinsRun_iff.mpr hj)⟩
  case pixel =>
    intro b slot run p ps this full empty placed sum held closed
    have hthis : ∀ {t : Slot}, slot = some t → this t → slotIs (some t) p.px b = true :=
      fun _ h => slotIs_iff.mpr ⟨_, rfl, h⟩
    have hfull : ∀ {l : List (Option Byte)}, ¬ full l → ¬ l.all Option.isSome = true := fun h hc => h ((all_isSome_iff _).mp hc)
    have hempty : ∀ {l : List (Option Byte)}, ¬ empty l → ¬ l.all Option.isNone = true :=
      fun h hc => h ((all_isNone_iff _).mp hc)
    have hjoin : ∀ {l : List (Option Byte)}, (run = [] ∨ ∃ q, run.getLast? = some q ∧ (placed l).addr = q.addr + 4 ∧ run.length < 64 ∧
        (placed l).addr % 4096 ≠ 0) → run = [] ∨ joinsRun run (p.place l) = true := fun h => h.imp_right joinsRun_iff.mpr
    refine ⟨fun hf hj => ⟨fun hs => ?_, fun hs => ?_⟩, fun hf he => ?_, fun hf he => ⟨fun hs => ?_, fun t hs ht =>
      ⟨fun ha hj => ?_, fun ha => ?_⟩, fun t hs ht => ?_⟩, fun hne hj1 hj2 => ?_, fun hs => ⟨?_, fun hne => ?_⟩,
      fun hs => ⟨fun hj => ?_, fun hne hj => ?_⟩⟩
    · rw [handleWrite_full b slot run ps ((all_isSome_iff _).mpr hf), if_pos (hjoin hj), if_pos (slotIs_iff.mpr hs)]
      rfl
    · rw [handleWrite_full b slot run ps ((all_isSome_iff _).mpr hf), if_pos (hjoin hj),
        if_neg (fun h => hs (slotIs_iff.mp h))]
      rfl
    · rw [handleWrite_skips b slot [] ps (hfull hf) ((all_isNone_iff _).mpr he), if_pos rfl]
    · subst hs
      exact handleWrite_takes b [] ps (hfull hf) (hempty he)
    · subst hs
      exact (handleWrite_fills b run ps (hfull hf) (hempty he) (hthis rfl ht) ((all_isSome_iff _).mpr ha)).trans
        (if_pos (hjoin hj))
    · subst hs
      exact handleWrite_overlays b [] ps (hfull hf) (hempty he) (hthis rfl ht) (hfull ha)
    · subst hs
      refine handleWrite_spills b [] ps (hfull hf) (hempty he) fun h => ?_
      obtain ⟨u, hu, hpx⟩ := slotIs_iff.mp h
      exact ht (Option.some.inj hu ▸ hpx)
    · refine handleWrite_closes b slot p ps hne (fun h hj => hj1 ((all_isSome_iff _).mp h) (joinsRun_iff.mp hj)) ?_
      intro h1 h2 t ht hs ha hj
      obtain ⟨u, hu, hpx⟩ := slotIs_iff.mp hs
      exact hj2 (fun h => h1 ((all_isSome_iff _).mpr h)) (fun h => h2 ((all_isNone_iff _).mpr h)) t ht
        (Option.some.inj hu ▸ hpx) ((all_isSome_iff _).mp ha) (joinsRun_iff.mp hj)
    · rw [handleRead, if_pos (slotIs_iff.mpr hs), if_pos rfl]
    · rw [handleRead, if_pos (slotIs_iff.mpr hs), if_neg hne, closeRun_open slot hne]
    · rw [handleRead, if_neg (fun h => hs (slotIs_iff.mp h)), if_pos (hjoin hj)]
      rfl
    · have hstop : ¬ (run = [] ∨ joinsRun run (p.place p.bytes) = true) := not_or.mpr ⟨hne, fun h => hj (joinsRun_iff.mp h)⟩
      rw [handleRead, if_neg (fun h => hs (slotIs_iff.mp h)), if_neg hstop, closeRun_open slot hne]

end Sys2Proof.Machine

namespace Sys2Proof.Machine
set_option Elab.async false

/-! # The walk of a STREAM request (R76 to R80)

The invariant of the walk after some bytes; one byte keeps it. -/

/-- The cursor's next position inside the window, from any position but the last (R77). -/
def StreamLatch.onward (sl : StreamLatch) (x y : Nat) : Nat × Nat :=
  if sl.columnFirst then (if y < sl.ye then (x, y + 1) else (x + 1, sl.ys))
  else (if x < sl.xe then (x + 1, y) else (sl.xs, y + 1))

/-- A position inside the latched window. -/
def StreamLatch.Inside (sl : StreamLatch) (x y : Nat) : Prop := sl.xs ≤ x ∧ x ≤ sl.xe ∧ sl.ys ≤ y ∧ y ≤ sl.ye

section
variable {sl : StreamLatch} {x y : Nat} (h : sl.Inside x y)
include h

theorem StreamLatch.advance_last (hl : x = sl.xe ∧ y = sl.ye) : sl.advance x y = (sl.xs, sl.ys, true) := by
  obtain ⟨rfl, rfl⟩ := hl
  simp [StreamLatch.advance]

theorem StreamLatch.advance_onward (hl : ¬ (x = sl.xe ∧ y = sl.ye)) :
    sl.advance x y = ((sl.onward x y).1, (sl.onward x y).2, false) ∧ sl.Inside (sl.onward x y).1 (sl.onward x y).2 := by
  obtain ⟨h1, h2, h3, h4⟩ := h
  unfold StreamLatch.advance StreamLatch.onward StreamLatch.Inside
  cases sl.columnFirst with
  | true =>
    simp only [if_true]
    split
    · exact ⟨rfl, by dsimp only; omega⟩
    · rw [if_pos (by omega)]
      exact ⟨rfl, by dsimp only; omega⟩
  | false =>
    simp only [Bool.false_eq_true, if_false]
    split
    · exact ⟨rfl, by dsimp only; omega⟩
    · rw [if_pos (by omega)]
      exact ⟨rfl, by dsimp only; omega⟩

end

/-- Where a walk stands after the bytes `all`, the held ones before the request among them. -/
structure Walked (d : Descriptor) (l : FillLatch) (sl : StreamLatch) (base : Nat) (all : List Byte) (w : StreamWalk) : Prop where
  bytes : ∃ rest : List Byte, rest.length = w.overrun ∧ all = w.placed.flatMap (fun p => p.bytes) ++ w.held ++ rest
  held : w.held.length < d.bpp
  cursor : sl.Inside w.cx w.cy
  each : ∀ p ∈ w.placed, p.bytes.length = d.bpp ∧ ∃ x y, sl.Inside x y ∧ p = streamPixel d l base x y p.bytes
  first : ∀ p, w.placed.head? = some p → p.px = .pos sl.cx sl.cy
  next : ∀ n p q x y, w.placed[n]? = some p → w.placed[n + 1]? = some q → p.px = .pos x y →
    ¬ (x = sl.xe ∧ y = sl.ye) ∧ q.px = .pos (sl.onward x y).1 (sl.onward x y).2
  last : ∀ p x y, w.placed.getLast? = some p → p.px = .pos x y →
    if x = sl.xe ∧ y = sl.ye then w.wrapped = true else w.wrapped = false ∧ (w.cx, w.cy) = sl.onward x y
  none : w.placed = [] → w.wrapped = false ∧ w.cx = sl.cx ∧ w.cy = sl.cy
  wraps : if w.wrapped then w.held = [] ∧ w.cx = sl.xs ∧ w.cy = sl.ys else w.overrun = 0

section
variable {d : Descriptor} {l : FillLatch} {sl : StreamLatch} {base : Nat} {all : List Byte} {w : StreamWalk}

theorem Walked.overrun (h : Walked d l sl base all w) (hw : w.wrapped = true) (b : Byte) :
    Walked d l sl base (all ++ [b]) { w with overrun := w.overrun + 1 } := by
  obtain ⟨rest, hlen, hall⟩ := h.bytes
  exact { h with
    bytes := ⟨rest ++ [b], by simp [hlen], by rw [hall, List.append_assoc]⟩
    wraps := by simpa [hw] using h.wraps }

theorem Walked.holds (h : Walked d l sl base all w) (hw : w.wrapped = false) {b : Byte}
    (hb : (w.held ++ [b]).length < d.bpp) : Walked d l sl base (all ++ [b]) { w with held := w.held ++ [b] } := by
  obtain ⟨rest, hlen, hall⟩ := h.bytes
  have h0 : w.overrun = 0 := by simpa [hw] using h.wraps
  obtain rfl : rest = [] := List.eq_nil_of_length_eq_zero (hlen.trans h0)
  exact { h with
    bytes := ⟨[], hlen, by rw [hall]; simp⟩
    held := hb
    wraps := by simpa [hw] using h0 }

/-- The cursor's pixel gets its last byte: it is placed, and the cursor takes a step. -/
theorem Walked.places (h : Walked d l sl base all w) (hw : w.wrapped = false) {b : Byte}
    (hb : ¬ (w.held ++ [b]).length < d.bpp) :
    Walked d l sl base (all ++ [b])
      { cx := (sl.advance w.cx w.cy).1, cy := (sl.advance w.cx w.cy).2.1, held := []
        placed := w.placed ++ [streamPixel d l base w.cx w.cy (w.held ++ [b])]
        wrapped := (sl.advance w.cx w.cy).2.2, overrun := w.overrun } := by
  obtain ⟨rest, hlen, hall⟩ := h.bytes
  have h0 : w.overrun = 0 := by simpa [hw] using h.wraps
  obtain rfl : rest = [] := List.eq_nil_of_length_eq_zero (hlen.trans h0)
  have hheld := h.held
  have hstep : (w.cx = sl.xe ∧ w.cy = sl.ye ∧ sl.advance w.cx w.cy = (sl.xs, sl.ys, true)) ∨
      (¬ (w.cx = sl.xe ∧ w.cy = sl.ye) ∧
        sl.advance w.cx w.cy = ((sl.onward w.cx w.cy).1, (sl.onward w.cx w.cy).2, false) ∧
        sl.Inside (sl.onward w.cx w.cy).1 (sl.onward w.cx w.cy).2) := by
    by_cases hl : w.cx = sl.xe ∧ w.cy = sl.ye
    · exact .inl ⟨hl.1, hl.2, StreamLatch.advance_last h.cursor hl⟩
    · exact .inr ⟨hl, StreamLatch.advance_onward h.cursor hl⟩
  obtain ⟨h1, h2, h3, h4⟩ := h.cursor
  refine
    { bytes := ⟨[], hlen, by rw [hall]; simp [streamPixel]⟩
      held := by dsimp only [List.length_nil]; omega
      cursor := ?cursor
      each := fun p hp => ?each
      first := fun p hp => ?first
      next := fun n p q x y hp hq hx => ?next
      last := fun p x y hp hx => ?last
      none := fun hn => by simp at hn
      wraps := ?wraps }
  case cursor =>
    rcases hstep with ⟨-, -, he⟩ | ⟨-, he, hin⟩
    · rw [he]
      exact ⟨Nat.le_refl _, by dsimp only; omega, Nat.le_refl _, by dsimp only; omega⟩
    · rw [he]
      exact hin
  case each =>
    rcases List.mem_append.mp hp with hp | hp
    · exact h.each p hp
    · obtain rfl := List.mem_singleton.mp hp
      have hl : (w.held ++ [b]).length = d.bpp := by
        rw [List.length_append, List.length_singleton] at hb ⊢
        omega
      exact ⟨hl, w.cx, w.cy, h.cursor, rfl⟩
  case first =>
    by_cases hn : w.placed = []
    · obtain ⟨-, hx, hy⟩ := h.none hn
      rw [hn] at hp
      obtain rfl := Option.some.inj hp
      rw [← hx, ← hy]
      rfl
    · rw [List.head?_append_of_ne_nil _ hn] at hp
      exact h.first p hp
  case next =>
    by_cases hlt : n + 1 < w.placed.length
    · rw [List.getElem?_append_left (by omega)] at hp
      rw [List.getElem?_append_left hlt] at hq
      exact h.next n p q x y hp hq hx
    · have hn : n + 1 = w.placed.length := by
        have := (List.getElem?_eq_some_iff.mp hq).1
        rw [List.length_append, List.length_singleton] at this
        omega
      rw [List.getElem?_append_left (by omega)] at hp
      rw [hn, List.getElem?_concat_length] at hq
      obtain rfl := Option.some.inj hq
      have hlast := h.last p x y (by rw [List.getLast?_eq_getElem?, ← hn]; exact hp) hx
      split at hlast
      · rw [hw] at hlast
        cases hlast
      · next hne =>
        refine ⟨hne, ?_⟩
        rw [← hlast.2]
        rfl
  case last =>
    rw [List.getLast?_concat] at hp
    obtain rfl := Option.some.inj hp
    obtain ⟨rfl, rfl⟩ : w.cx = x ∧ w.cy = y := by simpa [streamPixel] using hx
    rcases hstep with ⟨he1, he2, he⟩ | ⟨hne, he, -⟩
    · rw [if_pos ⟨he1, he2⟩, he]
    · rw [if_neg hne, he]
      exact ⟨rfl, rfl⟩
  case wraps =>
    rcases hstep with ⟨-, -, he⟩ | ⟨-, he, -⟩
    · rw [he]
      exact ⟨rfl, rfl, rfl⟩
    · rw [he]
      exact h0

theorem Walked.byte (h : Walked d l sl base all w) (b : Byte) :
    Walked d l sl base (all ++ [b]) (streamByte d l sl base w b) := by
  unfold streamByte
  split
  case isTrue hw => exact h.overrun hw b
  case isFalse hw =>
    have hw : w.wrapped = false := by simpa using hw
    split
    case isTrue hb => exact h.holds hw hb
    case isFalse hb => exact h.places hw hb

theorem Walked.foldl (bytes : List Byte) (h : Walked d l sl base all w) :
    Walked d l sl base (all ++ bytes) (bytes.foldl (streamByte d l sl base) w) := by
  induction bytes generalizing all w with
  | nil => rwa [List.append_nil]
  | cons b bytes ih =>
    rw [List.append_cons]
    exact ih (h.byte b)

end

theorem streamWalk_walked (d : Descriptor) (l : FillLatch) (sl : StreamLatch) (base : Nat) (slot : Option Slot) (bytes : List Byte)
    (hin : sl.Inside sl.cx sl.cy) (hheld : (heldBytes slot).length < d.bpp) :
    Walked d l sl base (heldBytes slot ++ bytes) (streamWalk d l sl base slot bytes) := by
  refine Walked.foldl bytes
    { bytes := ⟨[], rfl, by simp⟩
      held := hheld
      cursor := hin
      each := fun p hp => (List.not_mem_nil hp).elim
      first := fun p hp => by cases hp
      next := fun n p q x y hp => by simp at hp
      last := fun p x y hp => by cases hp
      none := fun _ => ⟨rfl, rfl, rfl⟩
      wraps := rfl }

/-- Settles O17. -/
theorem streamWalked : Obligations.StreamWalked := by
  refine ⟨fun d l sl base slot bytes h1 h2 h3 h4 hheld => ?_, fun su b x l sl r hl hs hb => ?_⟩
  · intro w onward
    have h := streamWalk_walked d l sl base slot bytes ⟨h1, h2, h3, h4⟩ hheld
    obtain ⟨c1, c2, c3, c4⟩ := h.cursor
    refine ⟨h.bytes, h.held, c1, c2, c3, c4, fun p hp => ?_, h.first, h.next, h.last, h.none, h.wraps⟩
    obtain ⟨hlen, x, y, ⟨i1, i2, i3, i4⟩, hpx⟩ := h.each p hp
    exact ⟨hlen, x, y, i1, i2, i3, i4, hpx ▸ rfl, hpx ▸ rfl, hpx ▸ rfl⟩
  · simp only [Surface.mapHead, hl, Option.getD_some, hs, Surface.buf_of_some hb]
    rfl

end Sys2Proof.Machine

namespace Sys2Proof.Machine
set_option Elab.async false

/-! # A message taken byte by byte (R169, R171, R172, R176)

A byte stored changes only parts of the link that the answer sets anew, so the message's command finds what it would have
found before the message's first byte. -/

/-! ## Commands read of the link only its last error -/

/-- The part as the next answer finds it: nothing assembled, held or presented. -/
def State.blank (s : State) : State :=
  { s with link := { s.link with state := .responding, asm := [], bitCount := 0, shift := 0, cselHigh := false, response := [],
                                 respPos := 0 } }

def Applied.blank (a : Applied) : Applied := (a.1.blank, a.2)

theorem State.answer_blank (a : Applied) : State.answer a.blank = State.answer a := rfl

section
variable (s : State)

theorem State.blank_finish : s.blank.finish = s.finish.blank := by
  rw [State.finish_eq, State.finish_eq, show s.blank.fab = s.fab from rfl, show s.blank.env = s.env from rfl]
  generalize s.fab.finish s.env = f
  rfl

theorem State.blank_endReset : s.blank.endReset = s.endReset.blank := by
  unfold State.endReset
  rw [show s.blank.device = s.device from rfl, show s.blank.tags = s.tags from rfl]
  split <;> rfl

theorem State.blank_expireTag (t : Fin 32) : s.blank.expireTag t = (s.expireTag t).blank := by
  unfold State.expireTag
  exact State.blank_endReset
    ({ s with fab := s.fab.complete s.env s.tables (s.tag t) t .timeout }.setTag t
      { s.tag t with st := .quarantined, upRef := none })

theorem State.blank_expireOne (t : Fin 32) : s.blank.expireOne t = (s.expireOne t).blank := by
  unfold State.expireOne
  rw [show s.blank.due t = s.due t from rfl, State.blank_expireTag, State.blank_finish]
  split <;> rfl

theorem State.blank_expireDue : s.blank.expireDue = s.expireDue.blank := by
  have h : ∀ l : List (Fin 32), ∀ s : State, l.foldl State.expireOne s.blank = (l.foldl State.expireOne s).blank := by
    intro l
    induction l with
    | nil => exact fun _ => rfl
    | cons t l ih =>
      intro s
      rw [List.foldl_cons, List.foldl_cons, State.blank_expireOne, ih]
  exact h allTags s

theorem State.blank_softReset : s.blank.softReset = s.softReset.blank := by
  unfold State.softReset
  rw [← State.blank_finish, ← State.blank_endReset]
  rfl

end

/-! ## The commands -/

theorem Applied.ite_blank {c : Prop} [Decidable c] {a b a' b' : Applied} (ht : c → a = a'.blank) (hf : ¬ c → b = b'.blank) :
    (if c then a else b) = (if c then a' else b').blank := by
  split
  case isTrue h => exact ht h
  case isFalse h => exact hf h

theorem Applied.finish_blank (s : State) (r : Reply) : (s.blank.finish, r) = Applied.blank (s.finish, r) := by
  rw [State.blank_finish]
  generalize s.finish = t
  rfl

theorem Applied.onFabric_blank (s : State) (g : Env → Fabric → Fabric) (r : Reply) :
    ((s.blank.onFabric g).finish, r) = Applied.blank ((s.onFabric g).finish, r) := Applied.finish_blank (s.onFabric g) r

section
variable {s : State} {params : List Byte} {g h : Fin 8 → Applied}

theorem State.blank_named (hg : ∀ i, g i = (h i).blank) : s.blank.named params g = (s.named params h).blank := by
  unfold State.named
  cases surfaceNumber params with
  | some i => exact hg i
  | none => rfl

theorem State.blank_onAttached (hg : ∀ i, g i = (h i).blank) : s.blank.onAttached params g = (s.onAttached params h).blank :=
  State.blank_named fun i => Applied.ite_blank (fun _ => hg i) fun _ => rfl

end

section
variable (params : List Byte) (s : State)

theorem applyDefineSurface_blank : applyDefineSurface params s.blank = (applyDefineSurface params s).blank := by
  refine State.blank_named fun i => ?_
  change (match (s.surf i).life with | .empty | .defined => _ | .attached | .detaching => _) = _
  cases (s.surf i).life <;> rfl

theorem applyReadSurface_blank : applyReadSurface params s.blank = (applyReadSurface params s).blank := by
  unfold applyReadSurface
  refine State.blank_named (h := fun i => s.okWith _) fun i => ?_
  rw [show s.blank.surf i = s.surf i from rfl]
  rfl

theorem applyAttach_blank : applyAttach params s.blank = (applyAttach params s).blank := by
  refine State.blank_named fun i => Applied.ite_blank (fun _ => ?_) fun _ => rfl
  change (match s.fab.failedCheck i with | some n => _ | none => _) = _
  cases s.fab.failedCheck i with
  | some n => rfl
  | none => exact Applied.finish_blank (s.modSurf i Surface.attached) _

theorem applyDetach_blank : applyDetach params s.blank = (applyDetach params s).blank := by
  refine State.blank_named fun i => ?_
  rw [show s.blank.surf i = s.surf i from rfl]
  cases (s.surf i).life with
  | attached => exact Applied.onFabric_blank s (fun env f => f.detach env i) _
  | detaching | empty | defined => rfl

theorem applyErase_blank : applyErase params s.blank = (applyErase params s).blank := by
  refine State.blank_named fun i => ?_
  change (match (s.surf i).life with | .defined => _ | .empty => _ | .attached | .detaching => _) = _
  cases (s.surf i).life <;> rfl

theorem applyDiscard_blank : applyDiscard params s.blank = (applyDiscard params s).blank := by
  refine State.blank_onAttached fun i => ?_
  rw [show s.blank.surf i = s.surf i from rfl]
  refine Applied.ite_blank (fun _ => ?_) fun _ =>
    Applied.ite_blank (fun _ => Applied.ite_blank (fun _ => rfl) fun _ => Applied.finish_blank (s.modSurf i Surface.discardReady) _)
      fun _ => rfl
  cases (s.surf i).filling with
  | some b => exact Applied.onFabric_blank s (fun env f => f.discardFill env i b) _
  | none => rfl

theorem applyBindPipe_blank : applyBindPipe params s.blank = (applyBindPipe params s).blank := by
  unfold applyBindPipe
  split
  next h =>
    refine Applied.ite_blank (fun _ => ?_) fun _ => rfl
    let p : Fin 4 := ⟨(byteAt params 0).toNat, h⟩
    exact Applied.finish_blank { s with pipes := s.pipes.set p.val { s.pipes.get p with
      source := (byteAt params 1).setWidth 6, enabled := byteAt params 2 == 1 } p.isLt } _
  · rfl

theorem applySetTimeout_blank : applySetTimeout params s.blank = (applySetTimeout params s).blank := by
  unfold applySetTimeout
  have h := State.blank_expireDue { s with limit := byteAt params 0 }
  rw [show ({ s.blank with limit := byteAt params 0 } : State) = ({ s with limit := byteAt params 0 } : State).blank from rfl, h]
  generalize State.expireDue _ = t
  rfl

theorem Command.apply_blank (c : Command) : c.apply params s.blank = (c.apply params s).blank := by
  cases c with
  | ident | status => rfl
  | setTimeout => exact applySetTimeout_blank params s
  | readSurface =>
    exact applyReadSurface_blank params s
  | defineSurface => exact applyDefineSurface_blank params s
  | attach => exact applyAttach_blank params s
  | detach => exact applyDetach_blank params s
  | erase => exact applyErase_blank params s
  | setPolicy =>
    exact State.blank_onAttached fun i => Applied.ite_blank (fun _ => Applied.finish_blank (s.modSurf i _) _) fun _ => rfl
  | close =>
    exact State.blank_onAttached fun i =>
      Applied.ite_blank (fun _ => Applied.onFabric_blank s (fun env f => f.closeTrigger env i) _) fun _ => rfl
  | setOrient | setScroll | setVisible =>
    exact State.blank_onAttached fun i => Applied.ite_blank (fun _ => rfl) fun _ => rfl
  | setWindow =>
    exact State.blank_onAttached fun i => Applied.ite_blank (fun _ => rfl) fun _ => Applied.ite_blank (fun _ => rfl) fun _ => rfl
  | discard => exact applyDiscard_blank params s
  | bindPipe => exact applyBindPipe_blank params s
  | loadExpand | loadPalette =>
    exact Applied.ite_blank (fun _ => rfl) fun _ => Applied.ite_blank (fun _ => rfl) fun _ => rfl
  | readEvents | setAttention => exact Applied.ite_blank (fun _ => rfl) fun _ => rfl
  | reset =>
    change (s.blank.softReset, Reply.plain .accepted) = Applied.blank (s.softReset, Reply.plain .accepted)
    rw [State.blank_softReset]
    generalize s.softReset = t
    rfl

end

/-! ## Messages -/

theorem runMessage_blank (code : Byte) (params : List Byte) (check : Byte) (s : State) :
    runMessage code params check s.blank = (runMessage code params check s).blank := by
  unfold runMessage
  refine Applied.ite_blank (fun _ => rfl) fun _ => ?_
  cases commandOf code with
  | none => rfl
  | some c => exact Applied.ite_blank (fun _ => rfl) fun _ => Applied.ite_blank (fun _ => rfl) fun _ => c.apply_blank params s

theorem byteSum_append_checkByte (l : List Byte) : byteSum (l ++ [checkByte l]) = 0 := by
  have h : ∀ (l : List Byte) (x : Byte), byteSum (l ++ [x]) = byteSum l + x := by
    intro l x
    induction l with
    | nil => exact BitVec.add_comm x 0
    | cons b l ih => exact (congrArg (b + ·) ih).trans (BitVec.add_assoc b _ x).symm
  rw [h, checkByte]
  bv_omega

/-- A message with the command's code and a valid check byte runs the command. -/
theorem runMessage_checked (c : Command) (params : List Byte) (s : State) :
    runMessage c.code params (checkByte (messageBody c.code params)) s = runCommand c params s := by
  unfold runMessage
  rw [if_neg (not_not_intro (byteSum_append_checkByte _)), commandOf_code]

/-- The bytes stored before it do not change what a message does. -/
theorem State.answer_runMessage_store (code : Byte) (params : List Byte) (check : Byte) (s : State) (asm : List Byte) :
    State.answer (runMessage code params check (s.store asm)) = State.answer (runMessage code params check s) := by
  rw [← State.answer_blank, ← State.answer_blank (runMessage code params check s), ← runMessage_blank, ← runMessage_blank]
  rfl

/-- A byte taken in RECEIVING between bytes, as the row of a byte takes it. -/
theorem takeBytes_store (b : Byte) (bs : List Byte) (s : State) (asm : List Byte) :
    takeBytes (b :: bs) (s.store asm) = takeBytes bs ((s.store asm).receive (asm ++ [b])) := by
  unfold takeBytes
  rw [List.map_cons, execAll, exec_messageByteTaken_of_samples b rfl rfl]
  rfl

theorem byteAt_messageBody_one {code : Byte} {params : List Byte} (h : params.length ≤ 80) (rest : List Byte) :
    (byteAt (messageBody code params ++ rest) 1).toNat = params.length := by
  change (BitVec.ofNat 8 params.length).toNat = _
  rw [BitVec.toNat_ofNat, Nat.mod_eq_of_lt (by omega)]

/-- The message's bytes from any place before its check byte on. -/
theorem takeBytes_rest (s : State) (code : Byte) (params : List Byte) (check : Byte) (hp : params.length ≤ 80)
    (todo asm : List Byte) (ha : asm ≠ []) (h : asm ++ todo = messageBody code params) :
    takeBytes (todo ++ [check]) (s.store asm) = .next (State.answer (runMessage code params check s)) := by
  have hlen : asm.length + todo.length = params.length + 2 := by
    rw [← List.length_append, h]
    rfl
  induction todo generalizing asm with
  | nil =>
    rw [List.append_nil] at h
    subst h
    rw [List.nil_append, takeBytes_store]
    have h1 := byteAt_messageBody_one (code := code) hp [check]
    have hl : (messageBody code params ++ [check]).length = params.length + 3 := by simp [messageBody]
    have hdone : (s.store (messageBody code params)).receive (messageBody code params ++ [check]) =
        State.answer (runMessage code params check (s.store (messageBody code params))) := by
      have hdrop : ((messageBody code params ++ [check]).drop 2).take params.length = params := by simp [messageBody]
      have hcheck : byteAt (messageBody code params ++ [check]) (params.length + 2) = check := by
        simp [byteAt, messageBody, List.getElem?_append_right]
      have h0 : byteAt (messageBody code params ++ [check]) 0 = code := rfl
      simp only [State.receive, h1, hl, hdrop, hcheck, h0]
      rw [if_neg (by omega), if_pos trivial]
    rw [hdone, State.answer_runMessage_store]
    rfl
  | cons b todo ih =>
    have hpos := List.length_pos_of_ne_nil ha
    rw [List.length_cons] at hlen
    have h1 : (byteAt (asm ++ [b]) 1).toNat = params.length := by
      have hb := byteAt_messageBody_one (code := code) hp []
      rw [List.append_nil, ← h, List.append_cons] at hb
      rw [← hb]
      refine congrArg BitVec.toNat ?_
      simp only [byteAt, List.getD_eq_getElem?_getD]
      rw [List.getElem?_append_left (l₂ := todo) (by simp; omega)]
    have hstore : (s.store asm).receive (asm ++ [b]) = s.store (asm ++ [b]) := by
      simp only [State.receive, h1, List.length_append, List.length_singleton]
      rw [if_neg (by omega), if_neg (by omega)]
      rfl
    rw [List.cons_append, takeBytes_store, hstore]
    exact ih (asm ++ [b]) (by simp) (by rw [← h]; simp) (by rw [List.length_append, List.length_singleton]; omega)

/-- Settles O19. -/
theorem messageTakenByBytes : Obligations.MessageTakenByBytes := by
  intro s code params check hs hw hb hp
  have hsm : s.link.samples = true := by simp [Link.samples, hs, hw]
  have hfirst : ∀ bs, takeBytes (code :: bs) s = takeBytes bs (s.store [code]) := by
    intro bs
    unfold takeBytes
    rw [List.map_cons, execAll, exec_messageByteTaken_of_samples code hsm hb]
    simp only [State.takeByte, State.onLink, hs, hw, Bool.false_eq_true, if_false, State.store]
  have htakes : s.link.takes (messageBody code params) = true := by simp [Link.takes, hs, hw]
  have hbytes : takeBytes (messageBody code params ++ [check]) s = .next (State.answer (runMessage code params check s)) :=
    (hfirst _).trans (takeBytes_rest s code params check hp (BitVec.ofNat 8 params.length :: params) [code] (by simp) rfl)
  refine ⟨hbytes.trans ?_, fun c hc hk => hbytes.trans ?_⟩
  · refine congrArg Host.Outcome.next ?_
    rw [State.message, if_pos ⟨htakes, hp⟩]
  · subst hc hk
    rw [exec_row, State.command, State.message, if_pos ⟨htakes, hp⟩, runMessage_checked]

end Sys2Proof.Machine

/-! # Scanout reads resolved at acceptance (R11, R125 to R128) -/

namespace Sys2Proof.Machine

set_option Elab.async false

/-! ## What decides whether a surface rests -/

/-- The parts of a surface that say whether it rests. -/
structure Surface.RestsAs (su su' : Surface) : Prop where
  lane : su'.lane = su.lane := by rfl
  life : su'.life = su.life := by rfl
  head : su'.head = su.head := by rfl
  merges : su'.merges = su.merges := by rfl
  deferred : su'.deferred = su.deferred := by rfl
  states : su'.states = su.states := by rfl

theorem Fabric.surfaceRests_restsAs {f g : Fabric} {k : Fin 8} (h : (f.surf k).RestsAs (g.surf k))
    (hq : g.copy.queue.filter (fun j => decide (j.surface = k)) = f.copy.queue.filter (fun j => decide (j.surface = k))) :
    g.surfaceRests k = f.surfaceRests k := by
  have hm : (g.surf k).mergeOutstanding = (f.surf k).mergeOutstanding := by rw [Surface.mergeOutstanding, h.merges]; rfl
  have hc : (g.surf k).mergeClaim = (f.surf k).mergeClaim := by
    rw [Surface.mergeClaim, Surface.firstOutstanding, h.merges]
    rfl
  have ready : g.headReady k = f.headReady k := by
    funext m
    simp only [Fabric.headReady, Fabric.stripesDone, Fabric.jobOf_congr hq h.deferred, hm]
  simp only [Fabric.surfaceRests, Fabric.headRests, h.lane, h.life, h.head, ready, Surface.chooseFree_isNone h.states, hm, hc]

/-- A part at rest of which nothing that decides about rest changes in one surface. -/
theorem Fabric.rests_modSurf_restsAs {f : Fabric} {i : Fin 8} {g : Surface → Surface} (hr : f.rests = true)
    (h : (f.surf i).RestsAs (g (f.surf i))) : (f.modSurf i g).rests = true := by
  have hs : (f.modSurf i g).surf i = g (f.surf i) := f.surf_modSurf_same i g
  refine Fabric.rests_modSurf hr ?_ fun j _ _ => ?_
  · rw [Fabric.surfaceRests_restsAs (f := f) (g := f.modSurf i g) (hs ▸ h) rfl]
    exact (Fabric.rests_iff.mp hr).2.1 i
  · rw [Surface.st_buf, Surface.st_buf, h.states]

/-! ## The bytes of the aperture (R125, R126) -/

theorem Descriptor.pitchBytes_eq (d : Descriptor) : d.pitchBytes = 64 * d.pitch.toNat := Nat.mul_comm _ _

theorem Surface.scanByte_eq (su : Surface) (o : Nat) : su.scanByte o = su.scanTarget.bind (fun b =>
    if su.topActive ≤ o / su.desc.pitchBytes ∧ o / su.desc.pitchBytes ≤ su.bottomActive then
      some ((su.buf b).base.toNat + physicalRow su.desc su.scrollActive (o / su.desc.pitchBytes) * su.desc.pitchBytes +
        o % su.desc.pitchBytes)
    else none) := by
  unfold Surface.scanByte
  cases su.scanTarget <;> rfl

section
variable {su : Surface} {o o' : Nat} (hrow : o / su.desc.pitchBytes = o' / su.desc.pitchBytes)
include hrow

/-- A display row is blank throughout, or memory throughout. -/
theorem Surface.scanByte_isSome_row : (su.scanByte o).isSome = (su.scanByte o').isSome := by
  rw [Surface.scanByte_eq, Surface.scanByte_eq, hrow]
  cases su.scanTarget with
  | none => rfl
  | some b => simp only [Option.bind_some]; split <;> rfl

end

/-- The memory bytes of one display row lie at consecutive addresses. -/
theorem Surface.scanByte_succ {su : Surface} {o a : Nat} (ha : su.scanByte o = some a)
    (hrow : (o + 1) / su.desc.pitchBytes = o / su.desc.pitchBytes) : su.scanByte (o + 1) = some (a + 1) := by
  have hmod : (o + 1) % su.desc.pitchBytes = o % su.desc.pitchBytes + 1 := by
    have h1 := Nat.div_add_mod o su.desc.pitchBytes
    have h2 := Nat.div_add_mod (o + 1) su.desc.pitchBytes
    rw [hrow] at h2
    omega
  rw [Surface.scanByte_eq] at ha ⊢
  rw [hrow, hmod]
  cases ht : su.scanTarget with
  | none =>
    rw [ht] at ha
    cases ha
  | some b =>
    rw [ht, Option.bind_some] at ha
    rw [Option.bind_some]
    split at ha
    · next hv =>
      rw [if_pos hv, ← Option.some.inj ha]
      rfl
    · cases ha

theorem Surface.scanTarget_none {su : Surface} (h : su.life ≠ .attached ∨ ∀ x ∈ su.bufs, x.st ≠ .shown) : su.scanTarget = none := by
  unfold Surface.scanTarget
  rcases h with h | h
  · rw [if_neg h]
  · rw [Surface.shown_none.mpr h, ite_self]

theorem Surface.scanTarget_some {su : Surface} {b : Nat} {x : BufRec} (hb : BuffersSafe su) (hl : su.life = .attached)
    (hx : su.bufs[b]? = some x) (hs : x.st = .shown) : su.scanTarget = some b := by
  rw [Surface.scanTarget, if_pos hl]
  exact Surface.shown_eq_of hb.2.1 hx hs

/-! ## The parts of a scanout read (R128) -/

/-- The bytes of a part: each by its place in the read and its address. -/
def Part.cells (p : Part) : List (Nat × Nat) := (List.range p.len).map (fun j => (p.pos + j, p.addr + j))

theorem Part.cells_single (a pos : Nat) : ({ addr := a, len := 1, pos := pos } : Part).cells = [(pos, a)] := by simp [Part.cells]

theorem Part.cells_grow (p : Part) : ({ p with len := p.len + 1 } : Part).cells = p.cells ++ [(p.pos + p.len, p.addr + p.len)] := by
  simp [Part.cells, List.range_succ]

section
variable (su : Surface) (first : Nat)

/-- The memory bytes of a read from place `pos` on. -/
def Surface.memoryCells (pos n : Nat) : List (Nat × Nat) :=
  (List.range' pos n).filterMap (fun j => (su.scanByte (first + j)).map (fun a => (j, a)))

theorem Surface.memoryCells_succ (pos n : Nat) : su.memoryCells first pos (n + 1) =
    ((su.scanByte (first + pos)).map (fun a => (pos, a))).toList ++ su.memoryCells first (pos + 1) n := by
  unfold Surface.memoryCells
  rw [List.range'_succ, List.filterMap_cons]
  cases su.scanByte (first + pos) <;> rfl

/-- The row of the read's byte at a place. -/
def Surface.rowAt (pos : Nat) : Nat := (first + pos) / su.desc.pitchBytes

theorem Surface.rowAt_mono {a b : Nat} (h : a ≤ b) : su.rowAt first a ≤ su.rowAt first b :=
  Nat.div_le_div_right (Nat.add_le_add_left h first)

/-- A part of the read: memory bytes of one display row at consecutive addresses, none but its first at a multiple of 4096. -/
def Surface.GoodPart (p : Part) : Prop := 1 ≤ p.len ∧ ∀ j, j < p.len →
  su.rowAt first (p.pos + j) = su.rowAt first p.pos ∧ su.scanByte (first + (p.pos + j)) = some (p.addr + j) ∧
    (1 ≤ j → (p.addr + j) % 4096 ≠ 0)

/-- Two parts may follow each other: they are of different display rows, or the second begins at a multiple of 4096. -/
def Surface.Cut (p q : Part) : Prop := su.rowAt first p.pos ≠ su.rowAt first q.pos ∨ q.addr % 4096 = 0

/-- The bytes of the read from place `pos` on, as the parts are gathered from them. -/
def Surface.scanCells (pos n : Nat) : List (Nat × Option Nat) :=
  (List.range' (first + pos) n).map (fun o => (o / su.desc.pitchBytes, su.scanByte o))

theorem Surface.scanCells_succ (pos n : Nat) : su.scanCells first pos (n + 1) =
    (su.rowAt first pos, su.scanByte (first + pos)) :: su.scanCells first (pos + 1) n := by
  unfold Surface.scanCells
  rw [List.range'_succ, List.map_cons]
  rfl

/-- What gathering yields from place `pos` on, when the part being formed began at `lo` with the bytes `cells`. -/
structure Surface.Gathered (cells : List (Nat × Nat)) (lo : Nat) (parts : List Part) : Prop where
  cells : parts.flatMap Part.cells = cells
  good : ∀ p ∈ parts, su.GoodPart first p
  cut : parts.IsChain (su.Cut first)
  from' : ∀ p ∈ parts, lo ≤ p.pos

end

section
variable {su : Surface} {first : Nat}

theorem Surface.goodPart_single {pos a : Nat} (ha : su.scanByte (first + pos) = some a) :
    su.GoodPart first { addr := a, len := 1, pos := pos } := by
  refine ⟨Nat.le_refl 1, fun j hj => ?_⟩
  obtain rfl : j = 0 := by dsimp only at hj; omega
  exact ⟨rfl, ha, fun h => by omega⟩

/-- The next byte of the same row joins a part. -/
theorem Surface.GoodPart.grow {p : Part} (h : su.GoodPart first p)
    (hrow : su.rowAt first (p.pos + p.len) = su.rowAt first p.pos) {a : Nat}
    (ha : su.scanByte (first + (p.pos + p.len)) = some a) (h4 : a % 4096 ≠ 0) :
    a = p.addr + p.len ∧ su.GoodPart first { p with len := p.len + 1 } := by
  obtain ⟨h1, hj⟩ := h
  obtain ⟨hr, hb, -⟩ := hj (p.len - 1) (by omega)
  have he : first + (p.pos + (p.len - 1)) + 1 = first + (p.pos + p.len) := by omega
  have hnext := Surface.scanByte_succ hb (by
    rw [he]
    exact hrow.trans hr.symm)
  rw [he, ha] at hnext
  have haddr : a = p.addr + p.len := by
    have := Option.some.inj hnext
    omega
  refine ⟨haddr, Nat.le_add_left 1 _, fun j hlt => ?_⟩
  by_cases hj' : j < p.len
  · exact hj j hj'
  · obtain rfl : j = p.len := by dsimp only at hlt; omega
    exact ⟨hrow, haddr ▸ ha, fun _ => haddr ▸ h4⟩

/-- The part being formed ends before what the rest yields. -/
theorem Surface.Gathered.cons {p : Part} {cells : List (Nat × Nat)} {lo : Nat} {parts : List Part} (h : su.Gathered first cells lo parts)
    (hp : su.GoodPart first p) (hlo : p.pos ≤ lo) (hc : ∀ q, parts.head? = some q → su.Cut first p q) :
    su.Gathered first (p.cells ++ cells) p.pos (p :: parts) where
  cells := by rw [List.flatMap_cons, h.cells]
  good q hq := (List.mem_cons.mp hq).elim (fun e => e ▸ hp) (h.good q)
  cut := List.isChain_cons.mpr ⟨fun q hq => hc q hq, h.cut⟩
  from' q hq := (List.mem_cons.mp hq).elim (fun e => e ▸ Nat.le_refl _) fun hq => hlo.trans (h.from' q hq)

theorem Surface.Gathered.weaken {cells : List (Nat × Nat)} {lo lo' : Nat} {parts : List Part} (h : su.Gathered first cells lo parts)
    (hlo : lo' ≤ lo) : su.Gathered first cells lo' parts :=
  { h with from' := fun p hp => hlo.trans (h.from' p hp) }

/-- The part being formed: its bytes are good, and the next place follows it. -/
def Surface.Forming (su : Surface) (first pos : Nat) (cur : Part × Nat) : Prop :=
  su.GoodPart first cur.1 ∧ cur.1.pos + cur.1.len = pos ∧ cur.2 = su.rowAt first cur.1.pos

theorem Surface.forming_start {pos a : Nat} (ha : su.scanByte (first + pos) = some a) :
    su.Forming first (pos + 1) ({ addr := a, len := 1, pos := pos }, su.rowAt first pos) :=
  ⟨Surface.goodPart_single ha, rfl, rfl⟩

/-- The first part that gathering yields is the one being formed, grown. -/
theorem gatherParts_head (xs : List (Nat × Option Nat)) (pos : Nat) (p : Part) (r : Nat) :
    ∃ q, (gatherParts (some (p, r)) pos xs).head? = some q ∧ q.pos = p.pos ∧ q.addr = p.addr := by
  induction xs generalizing pos p with
  | nil => exact ⟨p, rfl, rfl, rfl⟩
  | cons x xs ih =>
    obtain ⟨row, a | a⟩ := x
    · exact ⟨p, rfl, rfl, rfl⟩
    · rw [gatherParts]
      split
      · exact ih (pos + 1) { p with len := p.len + 1 }
      · exact ⟨p, rfl, rfl, rfl⟩

theorem gatherParts_spec (n pos : Nat) :
    su.Gathered first (su.memoryCells first pos n) pos (gatherParts none pos (su.scanCells first pos n)) ∧
      ∀ cur, su.Forming first pos cur →
        su.Gathered first (cur.1.cells ++ su.memoryCells first pos n) cur.1.pos (gatherParts (some cur) pos (su.scanCells first pos n)) := by
  induction n generalizing pos with
  | zero =>
    have hnil : su.Gathered first [] pos [] := ⟨rfl, by simp, List.isChain_nil, by simp⟩
    exact ⟨hnil, fun cur hf => hnil.cons hf.1 (by obtain ⟨-, h, -⟩ := hf; omega) fun q hq => by cases hq⟩
  | succ n ih =>
    obtain ⟨ihn, ihs⟩ := ih (pos + 1)
    rw [Surface.scanCells_succ, Surface.memoryCells_succ]
    cases ha : su.scanByte (first + pos) with
    | none =>
      have hrest : su.Gathered first (su.memoryCells first (pos + 1) n) pos (gatherParts none (pos + 1) (su.scanCells first (pos + 1) n)) :=
        ihn.weaken (Nat.le_succ pos)
      refine ⟨hrest, fun cur hf => ?_⟩
      obtain ⟨hg, hpos, -⟩ := hf
      refine hrest.cons hg (by omega) fun q hq => Or.inl fun he => ?_
      -- a blank byte between two parts: its row is neither's
      have hq := hrest.from' q (List.mem_of_mem_head? hq)
      have h1 := su.rowAt_mono first (show cur.1.pos ≤ pos by omega)
      have h2 := su.rowAt_mono first hq
      have hsame : su.rowAt first cur.1.pos = su.rowAt first pos := by omega
      have hsome := Surface.scanByte_isSome_row (su := su) hsame
      obtain ⟨-, hbyte, -⟩ := hg.2 0 hg.1
      rw [ha, Nat.add_zero] at *
      rw [hbyte] at hsome
      cases hsome
    | some a =>
      have hstart := ihs _ (Surface.forming_start ha)
      rw [Part.cells_single] at hstart
      refine ⟨hstart, fun cur hf => ?_⟩
      obtain ⟨p, r⟩ := cur
      obtain ⟨hg, hpos, hr⟩ := hf
      dsimp only at hg hpos hr ⊢
      rw [gatherParts]
      split
      case isTrue h =>
        obtain ⟨hrow, h4⟩ := h
        obtain ⟨haddr, hgrow⟩ := hg.grow (by rw [hpos, ← hrow, hr]) (hpos.symm ▸ ha) h4
        have := ihs ({ p with len := p.len + 1 }, r) ⟨hgrow, by dsimp only; omega, hr⟩
        rw [Part.cells_grow, hpos, ← haddr, List.append_assoc] at this
        exact this
      case isFalse h =>
        refine hstart.cons hg (by dsimp only; omega) fun q hq => ?_
        obtain ⟨q', hq', hpos', haddr'⟩ := gatherParts_head (su.scanCells first (pos + 1) n) (pos + 1)
          { addr := a, len := 1, pos := pos } (su.rowAt first pos)
        obtain rfl := Option.some.inj (hq'.symm.trans hq)
        rw [Surface.Cut, hpos', haddr', ← hr]
        exact (not_and_or.mp h).imp_right fun h => not_not.mp h

end

theorem Surface.scanParts_gathered (su : Surface) (first len : Nat) :
    su.Gathered first (su.memoryCells first 0 len) 0 (su.scanParts first len) := (gatherParts_spec len 0).1

theorem Surface.scanParts_eq_nil {su : Surface} {first len : Nat} (h : su.scanParts first len = []) {o : Nat}
    (ho : o ∈ List.range' first len) : su.scanByte o = none := by
  have hc := (su.scanParts_gathered first len).cells
  rw [h] at hc
  obtain ⟨j, hj, rfl⟩ := List.mem_range'.mp ho
  have := List.filterMap_eq_nil_iff.mp hc.symm j (List.mem_range'.mpr ⟨j, hj, by simp⟩)
  simpa using this

/-! ## Acceptance (R11) -/

theorem Fabric.kind_of_scanout {f : Fabric} {env : Env} {r : UpRequest} {i : Fin 8} (h : f.classify env r = .scanout i) :
    r.kind = .read := by
  unfold Fabric.classify at h
  split at h
  · cases h
  · split at h
    · cases h
    · split at h
      · cases h
      · split at h
        · cases hk : r.kind with
          | read => rfl
          | write =>
            rw [hk] at h
            cases h
        · cases h
    · cases h

/-- The mark of a record just opened, none of whose parts will be issued, answers it. -/
theorem Fabric.markDone_opened {f : Fabric} {recs : List RespRecord} {r : RespRecord} (hf : f.records = recs ++ [r])
    (hn : ∀ q ∈ recs, q.id ≠ r.id) (hi : r.issued = 0) :
    f.markDone r.id = { f with records := recs, sent := f.sent ++ [({ r with mark := true } : RespRecord).answer] } := by
  have hg : ∀ r : RespRecord, ({ r with mark := true } : RespRecord).id = r.id := fun _ => rfl
  have hfind : f.records.find? (fun q => q.id == r.id) = some r := by
    rw [hf, List.find?_append, List.find?_eq_none.mpr fun q hq => by simpa using hn q hq]
    simp
  have hfilter : f.records.filter (fun q => q.id != r.id) = recs := by
    rw [hf, List.filter_append, List.filter_eq_self.mpr fun q hq => by simpa using hn q hq]
    simp
  rw [Fabric.markDone, Fabric.closeIfDone, Fabric.find?_modRecord f r.id hg, hfind]
  simp only [Option.map_some, hi, and_self, if_true]
  rw [Fabric.filter_modRecord f r.id hg, hfilter]
  rfl

/-- A request accepted beside the surfaces and the copy engine: only the scanout queue may have something to do at once. -/
theorem Fabric.settle_of_scans {f g : Fabric} (env : Env) (hr : f.rests = true) (hs : g.surfaces = f.surfaces) (hc : g.copy = f.copy)
    (h : Fabric.leaveScans g.scanQ.length g = h') (hs' : h'.surfaces = f.surfaces) (hc' : h'.copy = f.copy) : g.settle env = h' := by
  obtain ⟨-, rs, -, re⟩ := Fabric.rests_iff.mp hr
  have surf : ∀ {g : Fabric}, g.surfaces = f.surfaces → ∀ k, g.surf k = f.surf k := fun h k => by simp only [Fabric.surf, h]
  have rest : ∀ k ∈ allSurfaces, g.surfaceRests k = true := fun k _ => by
    rw [Fabric.surfaceRests_congr (surf hs k) fun b => Fabric.jobOf_congr (by rw [hc]) (by rw [surf hs]) b]
    exact rs k
  unfold Fabric.settle
  simp only [Fabric.foldl_settle_of_rests g env allSurfaces rest, h]
  refine Fabric.runEngine_of_rests h' ?_ 5
  rw [Fabric.engineRests_congr (f := f) hc' fun j _ => by simp only [Fabric.startable, surf hs'], re]

theorem blankByte_eq (d : Descriptor) (b : Nat) : d.blankByte b = d.blank.extractLsb' (8 * (b % 4)) 8 := by
  have hb : b % 4 < 4 := Nat.mod_lt _ (by decide)
  unfold Descriptor.blankByte wordBytes
  generalize b % 4 = k at hb ⊢
  match k, hb with
  | 0, _ | 1, _ | 2, _ | 3, _ => rfl

theorem Surface.scanData_get {su : Surface} {first len j : Nat} (hj : j < len) : byteAt (su.scanData first len) j =
    if (su.scanByte (first + j)).isNone then su.desc.blankByte ((first + j) % su.desc.pitchBytes) else 0 := by
  simp [byteAt, Surface.scanData, hj]

section
variable {f : Fabric} {i : Fin 8} {r : UpRequest}

theorem Fabric.acceptScan_blank (hp : (f.surf i).scanParts (r.addr.toNat - (f.surf i).desc.apStart) r.len = []) :
    f.acceptScan i r = Fabric.openRecord
      { f with scanQ := f.scanQ ++ [{ id := f.nextId, source := r.source, surface := i, target := none, parts := [], started := false }] }
      r ((f.surf i).scanData (r.addr.toNat - (f.surf i).desc.apStart) r.len) := by
  unfold Fabric.acceptScan
  simp only [hp, if_true]

theorem Fabric.acceptScan_memory (hp : (f.surf i).scanParts (r.addr.toNat - (f.surf i).desc.apStart) r.len ≠ []) {b : Nat}
    (ht : (f.surf i).scanTarget = some b) :
    f.acceptScan i r = Fabric.openRecord
      { f.modBuf i b (fun x => { x with scanReads := x.scanReads +
          ((f.surf i).scanParts (r.addr.toNat - (f.surf i).desc.apStart) r.len).length }) with
        scanQ := f.scanQ ++ [{
          id := f.nextId, source := r.source, surface := i, target := some b
          parts := (f.surf i).scanParts (r.addr.toNat - (f.surf i).desc.apStart) r.len, started := false }] }
      r ((f.surf i).scanData (r.addr.toNat - (f.surf i).desc.apStart) r.len) := by
  unfold Fabric.acceptScan
  simp only [hp, if_false, ht]
  rfl

end

section
variable {s : State} {r : UpRequest} {i : Fin 8} (hr : s.AtRest) (hd : s.device = .running)
  (hc : s.fab.classify s.env r = .scanout i) (hq : s.fab.scanQ.length < 8)
include hr hd hc hq

/-- A scanout read is accepted by a part at rest, and what follows at once follows. -/
theorem exec_scanout : exec (.upstreamRequest r) s = .next { s with
    fab := { (({ s.fab with offered := [r] } : Fabric).acceptScan i r).settle s.env with offered := [] } } := by
  have hm : s.fab.mayAccept s.env r = true :=
    Fabric.mayAccept_of_running (State.env_running hd) (fun h => by simp [hc] at h) fun _ _ => hq
  rw [exec_upstreamRequest_of_rest r hr, if_pos hm, Fabric.accept,
    show ({ s.fab with offered := [r] } : Fabric).classify s.env r = .scanout i from hc]

/-- R11: a read that is blank throughout and finds the queue empty is answered at once. -/
theorem exec_scanout_blank (hp : (s.surf i).scanParts (r.addr.toNat - (s.surf i).desc.apStart) r.len = []) (h0 : s.fab.scanQ = [])
    (hn : ∀ q ∈ s.fab.records, q.id ≠ s.fab.nextId) :
    exec (.upstreamRequest r) s = .next
      { s with fab := { s.fab with
        sent := s.fab.sent ++ [{
          tag := r.tag, code := .okay,
          data := (List.range' (r.addr.toNat - (s.surf i).desc.apStart) r.len).map
            (fun o => (s.surf i).desc.blankByte (o % (s.surf i).desc.pitchBytes)) }],
        nextId := s.fab.nextId + 1 } } := by
  let first := r.addr.toNat - (s.surf i).desc.apStart
  let data := (s.surf i).scanData first r.len
  let rec' : RespRecord := { id := s.fab.nextId, tag := r.tag, kind := r.kind, issued := 0, mark := false, worst := .okay, data := data }
  have hdata : data = (List.range' first r.len).map (fun o => (s.surf i).desc.blankByte (o % (s.surf i).desc.pitchBytes)) :=
    List.map_congr_left fun o ho => by rw [Surface.scanParts_eq_nil hp ho]; rfl
  have haccept : ({ s.fab with offered := [r] } : Fabric).acceptScan i r = { s.fab with
      offered := [r]
      scanQ := [{ id := s.fab.nextId, source := r.source, surface := i, target := none, parts := [], started := false }]
      records := s.fab.records ++ [rec'], nextId := s.fab.nextId + 1 } := by
    refine (Fabric.acceptScan_blank (f := { s.fab with offered := [r] }) (i := i) (r := r) hp).trans ?_
    rw [show ({ s.fab with offered := [r] } : Fabric).scanQ = [] from h0]
    rfl
  rw [exec_scanout hr hd hc hq, haccept]
  rw [Fabric.settle_of_scans (f := s.fab) (g := { s.fab with
      offered := [r]
      scanQ := [{ id := s.fab.nextId, source := r.source, surface := i, target := none, parts := [], started := false }]
      records := s.fab.records ++ [rec'], nextId := s.fab.nextId + 1 }) (h' := { s.fab with
      offered := [r], sent := s.fab.sent ++ [({ rec' with mark := true } : RespRecord).answer], nextId := s.fab.nextId + 1 })
    s.env hr rfl rfl ?_ rfl rfl]
  · have hk := Fabric.kind_of_scanout hc
    have hans : ({ rec' with mark := true } : RespRecord).answer = { tag := r.tag, code := .okay, data := data } := by
      simp only [RespRecord.answer, rec', hk, and_self, if_true]
      rfl
    have ho := (Fabric.rests_iff.mp hr).1
    rw [hans, hdata, ← ho]
  · simp only [Fabric.leaveScans, List.length_singleton, if_true]
    rw [Fabric.markDone_opened (r := rec') rfl hn rfl, ← h0]

/-- R11, R125: a read with memory bytes joins the queue and is counted into its target. -/
theorem exec_scanout_memory {b : Nat} (hp : (s.surf i).scanParts (r.addr.toNat - (s.surf i).desc.apStart) r.len ≠ [])
    (ht : (s.surf i).scanTarget = some b) :
    exec (.upstreamRequest r) s = .next
      { s with fab := { s.fab.modBuf i b (fun x => { x with scanReads := x.scanReads +
          ((s.surf i).scanParts (r.addr.toNat - (s.surf i).desc.apStart) r.len).length }) with
        scanQ := s.fab.scanQ ++ [{
          id := s.fab.nextId, source := r.source, surface := i, target := some b,
          parts := (s.surf i).scanParts (r.addr.toNat - (s.surf i).desc.apStart) r.len, started := false }],
        records := s.fab.records ++ [{
          id := s.fab.nextId, tag := r.tag, kind := r.kind, issued := 0, mark := false,
          worst := .okay, data := (s.surf i).scanData (r.addr.toNat - (s.surf i).desc.apStart) r.len }],
        nextId := s.fab.nextId + 1 } } := by
  have hm : s.fab.mayAccept s.env r = true :=
    Fabric.mayAccept_of_running (State.env_running hd) (fun h => by simp [hc] at h) fun _ _ => hq
  refine exec_upstreamRequest_of_still hr hm ?_ ?_
  · rw [Fabric.accept, show ({ s.fab with offered := [r] } : Fabric).classify s.env r = .scanout i from hc]
    exact Fabric.acceptScan_memory (f := { s.fab with offered := [r] }) hp ht
  · let g := s.fab.modBuf i b (fun x => { x with scanReads := x.scanReads +
      ((s.surf i).scanParts (r.addr.toNat - (s.surf i).desc.apStart) r.len).length })
    have hg : g.rests = true := Fabric.rests_modSurf_restsAs hr { states := Surface.states_modBuf _ _ fun _ => rfl }
    obtain ⟨ro, rs, rq, re⟩ := Fabric.rests_iff.mp hg
    refine Fabric.rests_iff.mpr ⟨ro, fun k => ?_, ?_, ?_⟩
    · exact (Fabric.surfaceRests_congr (f := g) rfl fun _ => rfl).trans (rs k)
    · have rq : s.fab.scansRest = true := (Fabric.rests_iff.mp hr).2.2.1
      unfold Fabric.scansRest at rq ⊢
      cases h0 : s.fab.scanQ with
      | nil => exact decide_eq_true hp
      | cons e es =>
        rw [h0] at rq
        exact rq
    · exact (Fabric.engineRests_congr (f := g) rfl fun _ _ => rfl).trans re

end

/-- Settles O49. -/
theorem scanoutReadResolved : Obligations.ScanoutReadResolved := by
  refine ⟨fun su o => ⟨fun h => ?none, fun b x hb hl hx hs => ?shown⟩, fun su first len => ?parts, fun s r i hr hd hc hq =>
    ⟨exec_scanout_blank hr hd hc hq, fun b hp ht => exec_scanout_memory hr hd hc hq hp ht⟩⟩
  case none => rw [Surface.scanByte_eq, Surface.scanTarget_none h]; rfl
  case shown =>
    intro pitch sy top rows
    have hsy : o / su.desc.pitchBytes = sy := by rw [Descriptor.pitchBytes_eq]
    rw [Surface.scanByte_eq, Surface.scanTarget_some hb hl hx hs, Option.bind_some, hsy, Surface.buf_of_some hx]
    refine ⟨fun h => if_neg (by omega), fun h1 h2 => ?_⟩
    rw [if_pos ⟨h1, h2⟩, Descriptor.pitchBytes_eq]
    refine ⟨fun h => ?_, fun h3 h4 h5 => ?_⟩
    · rw [physicalRow, if_neg (by omega)]
    · rw [physicalRow, if_pos (by omega)]
  case parts =>
    intro pitch parts
    have h := su.scanParts_gathered first len
    have hrow : ∀ k, su.rowAt first k = (first + k) / pitch := fun k => by rw [Surface.rowAt, Descriptor.pitchBytes_eq]
    refine ⟨?_, fun p hp => ?_, fun n p q hp hq => ?_, by simp [Surface.scanData], fun j hj hn => ?_⟩
    · rw [List.range_eq_range']
      exact h.cells
    · obtain ⟨h1, hj⟩ := h.good p hp
      refine ⟨h1, fun j hj1 hj2 => ?_⟩
      obtain ⟨hr, -, h4⟩ := hj j hj2
      rw [hrow, hrow, ← Nat.add_assoc] at hr
      exact ⟨hr, h4 hj1⟩
    · obtain ⟨hn, rfl⟩ := List.getElem?_eq_some_iff.mp hp
      obtain ⟨hn', rfl⟩ := List.getElem?_eq_some_iff.mp hq
      have := List.isChain_iff_getElem.mp h.cut n hn'
      rwa [Surface.Cut, hrow, hrow] at this
    · rw [Surface.scanData_get hj, hn, blankByte_eq, Descriptor.pitchBytes_eq]
      rfl

end Sys2Proof.Machine

/-! # What one surface does at once, beside the others

An operation of one surface's lane, converter and buffers leaves the other surfaces and their copy jobs, so a part of which
only one surface has anything to do settles by that surface and the copy engine. -/

namespace Sys2Proof.Machine

set_option Elab.async false

/-! ## One surface beside the others -/

/-- The jobs of the other surfaces. -/
def othersJobs (i : Fin 8) (l : List CopyJob) : List CopyJob := l.filter (fun j => decide (j.surface ≠ i))

/-- Only surface `i`, its copy jobs, the records, the responses, the events and the model's counters of merges and claims have
changed. -/
structure Fabric.Beside (i : Fin 8) (f g : Fabric) : Prop where
  offered : g.offered = f.offered := by rfl
  passQ : g.passQ = f.passQ := by rfl
  scanQ : g.scanQ = f.scanQ := by rfl
  nextId : g.nextId = f.nextId := by rfl
  surf : ∀ k, k ≠ i → g.surf k = f.surf k
  queue : othersJobs i g.copy.queue = othersJobs i f.copy.queue := by rfl
  current : g.copy.current = f.copy.current := by rfl
  slots : g.copy.slots = f.copy.slots := by rfl
  nextChunk : g.copy.nextChunk = f.copy.nextChunk := by rfl

section
variable {i : Fin 8} {f g h : Fabric}

theorem Fabric.Beside.refl (f : Fabric) : Fabric.Beside i f f := { surf := fun _ _ => rfl }

theorem Fabric.Beside.trans (a : Fabric.Beside i f g) (b : Fabric.Beside i g h) : Fabric.Beside i f h where
  offered := b.offered.trans a.offered
  passQ := b.passQ.trans a.passQ
  scanQ := b.scanQ.trans a.scanQ
  nextId := b.nextId.trans a.nextId
  surf k hk := (b.surf k hk).trans (a.surf k hk)
  queue := b.queue.trans a.queue
  current := b.current.trans a.current
  slots := b.slots.trans a.slots
  nextChunk := b.nextChunk.trans a.nextChunk

theorem Fabric.Beside.jobs (a : Fabric.Beside i f g) {k : Fin 8} (hk : k ≠ i) :
    g.copy.queue.filter (fun j => decide (j.surface = k)) = f.copy.queue.filter (fun j => decide (j.surface = k)) := by
  have part : ∀ l : List CopyJob, l.filter (fun j => decide (j.surface = k)) =
      (othersJobs i l).filter (fun j => decide (j.surface = k)) := by
    intro l
    rw [othersJobs, List.filter_filter]
    refine List.filter_congr fun j _ => ?_
    by_cases h : j.surface = k
    · simp [h, hk]
    · simp [h]
  rw [part, part f.copy.queue, a.queue]

theorem Fabric.Beside.jobOf (a : Fabric.Beside i f g) {k : Fin 8} (hk : k ≠ i) (b : Nat) : g.jobOf k b = f.jobOf k b :=
  Fabric.jobOf_congr (a.jobs hk) (congrArg Surface.deferred (a.surf k hk)) b

theorem Fabric.Beside.surfaceRests (a : Fabric.Beside i f g) {k : Fin 8} (hk : k ≠ i) : g.surfaceRests k = f.surfaceRests k :=
  Fabric.surfaceRests_congr (a.surf k hk) (a.jobOf hk)

end

section
variable (f : Fabric) (i : Fin 8)

theorem Fabric.beside_modSurf (g : Surface → Surface) : Fabric.Beside i f (f.modSurf i g) where
  surf _ hk := f.surf_modSurf_other g (Ne.symm hk)

theorem Fabric.beside_modBuf (b : Nat) (g : BufRec → BufRec) : Fabric.Beside i f (f.modBuf i b g) := f.beside_modSurf i _

/-- The records, the responses, the events and the counters of merges and claims are beside every surface. -/
theorem Fabric.beside_books (rs : List RespRecord) (sent : List UpResponse) (es : List EventRecord) (m st : Nat) :
    Fabric.Beside i f { f with records := rs, sent := sent, events := es, nextMerge := m, nextStamp := st } where
  surf _ _ := rfl

theorem Fabric.beside_logSurf (env : Env) (kind : EventKind) (k : Fin 8) (b : Option Nat) (q d : Nat) :
    Fabric.Beside i f (f.logSurf env kind k b q d) := f.beside_books i _ _ _ _ _

theorem Fabric.beside_closeIfDone (id : Nat) : Fabric.Beside i f (f.closeIfDone id) := by
  unfold Fabric.closeIfDone
  split
  · split
    · exact f.beside_books i _ _ _ _ _
    · exact .refl f
  · exact .refl f

theorem Fabric.beside_modRecord (id : Nat) (g : RespRecord → RespRecord) : Fabric.Beside i f (f.modRecord id g) :=
  f.beside_books i _ _ _ _ _

theorem Fabric.beside_markDone (id : Nat) : Fabric.Beside i f (f.markDone id) :=
  (f.beside_modRecord i id _).trans (Fabric.beside_closeIfDone _ i id)

theorem Fabric.beside_createMerge (t : Slot) : Fabric.Beside i f (f.createMerge i t) := by
  unfold Fabric.createMerge
  exact (f.beside_books i _ _ _ _ _).trans (Fabric.beside_modSurf _ i _)

/-! ## Copy jobs of the surface -/

theorem Fabric.beside_queue {q : List CopyJob} (h : othersJobs i q = othersJobs i f.copy.queue) :
    Fabric.Beside i f { f with copy := { f.copy with queue := q } } where
  surf _ _ := rfl
  queue := h

theorem othersJobs_append_own {j : CopyJob} (l : List CopyJob) (hj : j.surface = i) : othersJobs i (l ++ [j]) = othersJobs i l := by
  simp [othersJobs, hj]

theorem Fabric.beside_addJob {j : CopyJob} (hj : j.surface = i) : Fabric.Beside i f (f.addJob j) := by
  unfold Fabric.addJob
  split
  · exact hj ▸ f.beside_modSurf j.surface _
  · exact f.beside_queue i (othersJobs_append_own i _ hj)

theorem Fabric.beside_decideCopy (env : Env) (b : Nat) : Fabric.Beside i f (f.decideCopy env i b) := by
  unfold Fabric.decideCopy
  dsimp only
  split
  · exact .refl f
  · split
    · exact (f.beside_modSurf i _).trans (Fabric.beside_logSurf _ i env _ i _ _ _)
    · exact (f.beside_modBuf i _ _).trans (Fabric.beside_addJob _ i rfl)

/-! ## The buffers -/

theorem Fabric.beside_makeReady (env : Env) (b : Nat) : Fabric.Beside i f (f.makeReady env i b) :=
  (f.beside_modSurf i _).trans (Fabric.beside_logSurf _ i env _ i _ _ _)

theorem Fabric.beside_drainEnd (env : Env) : Fabric.Beside i f (f.drainEnd env i) := by
  unfold Fabric.drainEnd
  dsimp only
  split
  · split
    · exact (f.beside_modSurf i _).trans (Fabric.beside_logSurf _ i env _ i _ _ _)
    · exact f.beside_modSurf i _
  · exact .refl f

theorem Fabric.beside_openBuffer (env : Env) (b : Nat) : Fabric.Beside i f (f.openBuffer env i b) :=
  (f.beside_decideCopy i env b).trans (Fabric.beside_modSurf _ i _)

theorem Fabric.beside_reclaimBuffer (env : Env) (b : Nat) : Fabric.Beside i f (f.reclaimBuffer env i b) :=
  (f.beside_modSurf i _).trans ((Fabric.beside_logSurf _ i env _ i _ _ _).trans (Fabric.beside_openBuffer _ i env b))

theorem Fabric.beside_spillSlot : Fabric.Beside i f (f.spillSlot i) := by
  unfold Fabric.spillSlot
  split
  · exact (f.beside_createMerge i _).trans (Fabric.beside_modSurf _ i _)
  · exact .refl f

end

theorem Fabric.beside_promoteReady (env : Env) (i : Fin 8) (l : List Nat) (f : Fabric) :
    Fabric.Beside i f (Fabric.promoteReady env i l f) := by
  induction l generalizing f with
  | nil => exact .refl f
  | cons b bs ih =>
    unfold Fabric.promoteReady
    split
    · exact (f.beside_makeReady i env b).trans (ih _)
    · exact .refl f

section
variable (f : Fabric) (i : Fin 8) (env : Env)

theorem Fabric.beside_bufferTests : Fabric.Beside i f (f.bufferTests env i) :=
  (f.beside_modSurf i _).trans ((Fabric.beside_promoteReady env i _ _).trans (Fabric.beside_drainEnd _ i env))

theorem Fabric.beside_applyClose (b : Nat) : Fabric.Beside i f (f.applyClose env i b) :=
  (f.beside_modSurf i _).trans ((Fabric.beside_spillSlot _ i).trans (Fabric.beside_bufferTests _ i env))

theorem Fabric.beside_closeTrigger : Fabric.Beside i f (f.closeTrigger env i) := by
  unfold Fabric.closeTrigger
  split
  · exact .refl f
  · split
    · exact f.beside_modSurf i _
    · exact f.beside_applyClose i env _

/-! ## The lane -/

theorem Fabric.beside_askStage (q : LaneReq) : Fabric.Beside i f (f.askStage env i q) := by
  unfold Fabric.askStage
  split
  · unfold Fabric.askBuffer
    split
    · exact f.beside_modSurf i _
    · next hn =>
      unfold Fabric.obtainBuffer
      dsimp only
      cases (f.surf i).chooseFree with
      | some b => exact (f.beside_openBuffer i env b).trans (Fabric.beside_modSurf _ i _)
      | none =>
        dsimp only
        by_cases hr : (f.surf i).desc.reclaim = true
        · rw [if_pos hr]
          cases (f.surf i).reclaimable with
          | some b => exact (f.beside_reclaimBuffer i env b).trans (Fabric.beside_modSurf _ i _)
          | none => exact f.beside_modSurf i _
        · rw [if_neg hr]
          exact f.beside_modSurf i _
  · unfold Fabric.serveWaiting
    split
    · exact (f.beside_openBuffer i env _).trans (Fabric.beside_modSurf _ i _)
    · exact .refl f
  · exact .refl f

theorem Fabric.beside_bindStage : Fabric.Beside i f (f.bindStage i) := by
  unfold Fabric.bindStage
  split
  · unfold Fabric.bindHead
    split
    · split
      · exact f.beside_modSurf i _
      · split
        · exact f.beside_modSurf i _
        · exact .refl f
    · exact .refl f
  · exact .refl f

theorem Fabric.beside_handleStage (q : LaneReq) : Fabric.Beside i f (f.handleStage i q) := by
  unfold Fabric.handleStage
  split
  · unfold Fabric.handleHead
    split
    · exact .refl f
    · dsimp only
      split
      · exact (f.beside_createMerge i _).trans (Fabric.beside_modSurf _ i _)
      · exact f.beside_modSurf i _
  · exact .refl f

theorem Fabric.beside_leaveLane (q : LaneReq) : Fabric.Beside i f (f.leaveLane env i q) := by
  have h := (f.beside_modSurf i (fun su => { su with lane := su.lane.tail, head := .fresh })).trans
    (Fabric.beside_markDone _ i q.id)
  unfold Fabric.leaveLane
  dsimp only
  split
  · split
    · exact h.trans (Fabric.beside_applyClose _ i env _)
    · exact h.trans (Fabric.beside_modSurf _ i _)
  · exact h

theorem Fabric.beside_leaveStage (q : LaneReq) : Fabric.Beside i f (f.leaveStage env i q) := by
  unfold Fabric.leaveStage
  split
  · split
    · exact f.beside_leaveLane i env q
    · exact .refl f
  · exact .refl f

theorem Fabric.beside_stepHead (q : LaneReq) : Fabric.Beside i f (f.stepHead env i q) := by
  rw [Fabric.stepHead_eq]
  exact (f.beside_askStage i env q).trans
    ((Fabric.beside_bindStage _ i).trans ((Fabric.beside_handleStage _ i q).trans (Fabric.beside_leaveStage _ i env q)))

end

theorem Fabric.beside_runLane (env : Env) (i : Fin 8) (n : Nat) (f : Fabric) : Fabric.Beside i f (Fabric.runLane env i n f) := by
  induction n generalizing f with
  | zero => exact .refl f
  | succ n ih =>
    unfold Fabric.runLane
    split
    · split
      · exact (f.beside_stepHead i env _).trans (ih _)
      · exact .refl f
    · exact .refl f

theorem Fabric.beside_presentMerge (f : Fabric) (i : Fin 8) : Fabric.Beside i f (f.presentMerge i) := by
  unfold Fabric.presentMerge
  split
  · split
    · exact (f.beside_books i _ _ _ _ _).trans (Fabric.beside_modSurf _ i _)
    · exact .refl f
  · exact .refl f

theorem Fabric.beside_settleSurface (f : Fabric) (env : Env) (i : Fin 8) : Fabric.Beside i f (Fabric.settleSurface env f i) :=
  (Fabric.beside_runLane env i _ f).trans (Fabric.beside_presentMerge _ i)

/-! ## Settling by one surface -/

theorem allSurfaces_split (i : Fin 8) : ∃ pre post, allSurfaces = pre ++ i :: post ∧ i ∉ pre ∧ i ∉ post := by
  refine ⟨allSurfaces.takeWhile (· ≠ i), (allSurfaces.dropWhile (· ≠ i)).tail, ?_, ?_, ?_⟩ <;> revert i <;> decide

/-- A fabric of which only surface `i` may have something to do settles by that surface and the engine. -/
theorem Fabric.settle_of_others {f : Fabric} (env : Env) (i : Fin 8) (ho : ∀ k, k ≠ i → f.surfaceRests k = true)
    (hq : f.scansRest = true) : f.settle env = Fabric.runEngine 5 (Fabric.settleSurface env f i) := by
  obtain ⟨pre, post, hsplit, hpre, hpost⟩ := allSurfaces_split i
  have hb := f.beside_settleSurface env i
  have hfold : allSurfaces.foldl (Fabric.settleSurface env) f = Fabric.settleSurface env f i := by
    rw [hsplit, List.foldl_append, List.foldl_cons,
      Fabric.foldl_settle_of_rests f env pre fun k hk => ho k fun e => hpre (e ▸ hk),
      Fabric.foldl_settle_of_rests _ env post fun k hk => ?_]
    have hk : k ≠ i := fun e => hpost (e ▸ hk)
    rw [hb.surfaceRests hk, ho k hk]
  unfold Fabric.settle
  simp only [hfold]
  rw [Fabric.leaveScans_of_rests]
  rw [Fabric.scansRest, hb.scanQ]
  exact hq

/-- A part at rest of which an event has changed surface `i` beside the others. -/
theorem Fabric.Beside.settle {i : Fin 8} {f g : Fabric} (h : Fabric.Beside i f g) (env : Env) (hr : f.rests = true) :
    g.settle env = Fabric.runEngine 5 (Fabric.settleSurface env g i) := by
  obtain ⟨-, rs, rq, -⟩ := Fabric.rests_iff.mp hr
  refine Fabric.settle_of_others env i (fun k hk => by rw [h.surfaceRests hk, rs]) ?_
  rw [Fabric.scansRest, h.scanQ]
  exact rq

theorem Fabric.finish_of_settle {f g : Fabric} (env : Env) (h : f.settle env = g) (hg : g.offered = []) : f.finish env = g := by
  unfold Fabric.finish
  simp only [h, hg, Fabric.pump]
  rw [← hg]

/-- The copy engine changes the engine, its jobs and nothing else. -/
theorem Fabric.runEngine_offered (n : Nat) (f : Fabric) : (Fabric.runEngine n f).offered = f.offered := by
  rw [(Fabric.sameButJobs_runEngine n f).rest]

theorem Fabric.Beside.finish {i : Fin 8} {f g : Fabric} (h : Fabric.Beside i f g) (env : Env) (hr : f.rests = true) :
    g.finish env = Fabric.runEngine 5 (Fabric.settleSurface env g i) := by
  refine Fabric.finish_of_settle env (h.settle env hr) ?_
  rw [Fabric.runEngine_offered, (g.beside_settleSurface env i).offered, h.offered, (Fabric.rests_iff.mp hr).1]

end Sys2Proof.Machine

/-! # A lane that has settled, and what a fill goes on with -/

namespace Sys2Proof.Machine

set_option Elab.async false

/-! ## What the tests of the buffers and a close leave of the surface -/

/-- Only the buffers, the present queue, the close order and the lifecycle state have changed. -/
def Surface.SameButTests (su su' : Surface) : Prop :=
  su' = { su with life := su'.life, bufs := su'.bufs, present := su'.present, closing := su'.closing }

theorem Surface.SameButTests.trans {a b c : Surface} (h : a.SameButTests b) (k : b.SameButTests c) : a.SameButTests c := by
  rw [Surface.SameButTests] at *
  rw [k, h]

theorem Fabric.surf_logSurf (f : Fabric) (env : Env) (kind : EventKind) (i : Fin 8) (b : Option Nat) (q d : Nat) (k : Fin 8) :
    (f.logSurf env kind i b q d).surf k = f.surf k := rfl

theorem Fabric.surf_makeReady (f : Fabric) (env : Env) (i : Fin 8) (b : Nat) : (f.makeReady env i b).surf i =
    { f.surf i with closing := (f.surf i).closing.erase b, present := (f.surf i).present ++ [b] }.modBuf b
      (fun r => { r with st := .ready }) := by
  unfold Fabric.makeReady
  dsimp only
  rw [Fabric.surf_logSurf, Fabric.surf_modSurf_same]

theorem Fabric.surf_promoteReady (env : Env) (i : Fin 8) (l : List Nat) (f : Fabric) :
    (f.surf i).SameButTests ((Fabric.promoteReady env i l f).surf i) := by
  induction l generalizing f with
  | nil => rfl
  | cons b bs ih =>
    unfold Fabric.promoteReady
    split
    · refine Surface.SameButTests.trans ?_ (ih _)
      rw [Fabric.surf_makeReady]
      rfl
    · rfl

theorem Fabric.surf_drainEnd (f : Fabric) (env : Env) (i : Fin 8) : (f.surf i).SameButTests ((f.drainEnd env i).surf i) := by
  unfold Fabric.drainEnd
  dsimp only
  split
  · split
    · rw [Fabric.surf_logSurf, Fabric.surf_modSurf_same]
      rfl
    · rw [Fabric.surf_modSurf_same]
      rfl
  · rfl

theorem Fabric.surf_bufferTests (f : Fabric) (env : Env) (i : Fin 8) : (f.surf i).SameButTests ((f.bufferTests env i).surf i) := by
  unfold Fabric.bufferTests
  refine Surface.SameButTests.trans ?_ (Fabric.surf_drainEnd _ env i)
  refine Surface.SameButTests.trans ?_ (Fabric.surf_promoteReady env i _ _)
  rw [Fabric.surf_modSurf_same]
  rfl

/-- The merge that a spilled slot's pixel becomes (R67). -/
def Slot.spilled (t : Slot) (id : Nat) : Merge :=
  { id := id, buf := t.buf, addr := t.addr, bytes := t.bytes, st := .waiting, noWrite := false, formed := none, presented := none }

theorem Fabric.surf_createMerge (f : Fabric) (i : Fin 8) (t : Slot) : (f.createMerge i t).surf i =
    { f.surf i with merges := (f.surf i).merges ++ [t.spilled f.nextMerge] }.modBuf t.buf
      (fun r => { r with merges := r.merges + 1 }) := by
  unfold Fabric.createMerge
  dsimp only
  rw [Fabric.surf_modSurf_same]
  rfl

theorem Fabric.surf_spillSlot (f : Fabric) (i : Fin 8) : (f.spillSlot i).surf i =
    { f.surf i with slot := none, merges := ((f.spillSlot i).surf i).merges, bufs := ((f.spillSlot i).surf i).bufs } := by
  unfold Fabric.spillSlot
  cases hs : (f.surf i).slot with
  | none => simp only [← hs]
  | some t =>
    dsimp only
    rw [Fabric.surf_modSurf_same, Fabric.surf_createMerge]
    rfl

/-- The lane and the head after a close. -/
theorem Fabric.surf_applyClose (f : Fabric) (env : Env) (i : Fin 8) (b : Nat) :
    ((f.applyClose env i b).surf i).lane = (f.surf i).lane ∧
      ((f.applyClose env i b).surf i).head = (f.surf i).head.dropMapping := by
  have hc := ((f.surf i).closeSteps_rest b).1
  have h1 := Fabric.surf_bufferTests ((f.modSurf i (fun su => su.closeSteps b)).spillSlot i) env i
  have h2 := Fabric.surf_spillSlot (f.modSurf i (fun su => su.closeSteps b)) i
  rw [Fabric.surf_modSurf_same] at h2
  unfold Fabric.applyClose
  constructor
  · rw [h1, h2, hc]
  · rw [h1, h2, hc]

/-! ## The head when the lane has been gone over -/

/-- The head has asked: it is not fresh, and waits only with no buffer FREE. -/
def Surface.Asked (su : Surface) : Prop :=
  match su.head with
  | .fresh => False
  | .waiting => su.chooseFree = none
  | .mapped _ | .bound _ => True

theorem Surface.asked_of_mapped {su : Surface} {m : Mapping} (h : su.head = .mapped m) : su.Asked := by
  rw [Surface.Asked, h]
  trivial

theorem Fabric.surf_openBuffer (f : Fabric) (env : Env) (i : Fin 8) (b : Nat) : (f.openBuffer env i b).surf i =
    { (f.decideCopy env i b).surf i with latch := some (f.surf i).desc.newLatch, holdWait := 0, holdReached := false }.modBuf b
      (fun r => { r with st := .filling, content := 0, written := [], touched := false, damaged := false, age := 0 }) := by
  unfold Fabric.openBuffer
  rw [Fabric.surf_modSurf_same, (f.surf_decideCopy env i b).1]

theorem Fabric.openBuffer_lane (f : Fabric) (env : Env) (i : Fin 8) (b : Nat) :
    ((f.openBuffer env i b).surf i).lane = (f.surf i).lane := by
  rw [Fabric.surf_openBuffer, (f.surf_decideCopy env i b).1]
  rfl

theorem Fabric.surf_mapInto (f : Fabric) (i : Fin 8) (b : Nat) (q : LaneReq) :
    (f.mapInto i b q).surf i = { f.surf i with head := .mapped ((f.surf i).mapHead b q.req) } := f.surf_modSurf_same i _

theorem Fabric.reclaimBuffer_lane (f : Fabric) (env : Env) (i : Fin 8) (b : Nat) :
    ((f.reclaimBuffer env i b).surf i).lane = (f.surf i).lane := by
  unfold Fabric.reclaimBuffer
  dsimp only
  rw [Fabric.openBuffer_lane, Fabric.surf_logSurf, Fabric.surf_modSurf_same]

/-- The three answers to a head that asks for a buffer with none FILLING. -/
theorem Fabric.obtainBuffer_cases (f : Fabric) (env : Env) (i : Fin 8) :
    (∃ b, (f.surf i).chooseFree = some b ∧ f.obtainBuffer env i = some (b, f.openBuffer env i b)) ∨
    (∃ b, (f.surf i).chooseFree = none ∧ (f.surf i).desc.reclaim = true ∧ (f.surf i).reclaimable = some b ∧
      f.obtainBuffer env i = some (b, f.reclaimBuffer env i b)) ∨
    ((f.surf i).chooseFree = none ∧ ((f.surf i).desc.reclaim = true → (f.surf i).reclaimable = none) ∧
      f.obtainBuffer env i = none) := by
  unfold Fabric.obtainBuffer
  dsimp only
  cases (f.surf i).chooseFree with
  | some b => exact .inl ⟨b, rfl, rfl⟩
  | none =>
    refine .inr ?_
    dsimp only
    by_cases hr : (f.surf i).desc.reclaim = true
    · rw [if_pos hr]
      cases (f.surf i).reclaimable with
      | some b => exact .inl ⟨b, rfl, hr, rfl, rfl⟩
      | none => exact .inr ⟨rfl, fun _ => rfl, rfl⟩
    · rw [if_neg hr]
      exact .inr ⟨rfl, fun h => absurd h hr, rfl⟩

section
variable (f : Fabric) (env : Env) (i : Fin 8) (q : LaneReq)

theorem Fabric.askStage_asked :
    ((f.askStage env i q).surf i).lane = (f.surf i).lane ∧ ((f.askStage env i q).surf i).Asked := by
  unfold Fabric.askStage
  cases hh : (f.surf i).head with
  | fresh =>
    dsimp only
    unfold Fabric.askBuffer
    cases (f.surf i).filling with
    | some b =>
      dsimp only
      rw [Fabric.surf_mapInto]
      exact ⟨rfl, Surface.asked_of_mapped rfl⟩
    | none =>
      dsimp only
      rcases f.obtainBuffer_cases env i with ⟨b, -, ho⟩ | ⟨b, -, -, -, ho⟩ | ⟨hn, -, ho⟩
      · rw [ho]
        dsimp only
        rw [Fabric.surf_mapInto]
        exact ⟨f.openBuffer_lane env i b, Surface.asked_of_mapped rfl⟩
      · rw [ho]
        dsimp only
        rw [Fabric.surf_mapInto]
        exact ⟨f.reclaimBuffer_lane env i b, Surface.asked_of_mapped rfl⟩
      · rw [ho]
        dsimp only
        rw [Fabric.surf_modSurf_same]
        exact ⟨rfl, show Surface.chooseFree _ = none from Surface.chooseFree_isNone_congr (su := f.surf i) rfl hn⟩
  | waiting =>
    dsimp only
    unfold Fabric.serveWaiting
    cases hn : (f.surf i).chooseFree with
    | some b =>
      dsimp only
      rw [Fabric.surf_mapInto]
      exact ⟨f.openBuffer_lane env i b, Surface.asked_of_mapped rfl⟩
    | none =>
      refine ⟨rfl, ?_⟩
      dsimp only
      rw [Surface.Asked, hh]
      exact hn
  | mapped m => exact ⟨rfl, Surface.asked_of_mapped hh⟩
  | bound bd =>
    refine ⟨rfl, ?_⟩
    dsimp only
    rw [Surface.Asked, hh]
    trivial

/-- A mapped head that is left mapped cannot be bound, or is a STREAM head that waits for its first grant. -/
def Fabric.MappedRests (f : Fabric) (i : Fin 8) : Prop :=
  ∀ m, (f.surf i).head = .mapped m → (!f.headReady i m || match m.plan with
    | .stream p => decide (p.runs ≠ [])
    | .direct _ => false) = true

theorem Fabric.bindHead_spec (m : Mapping) (hh : (f.surf i).head = .mapped m) :
    ((f.bindHead i m).surf i).lane = (f.surf i).lane ∧ ((f.bindHead i m).surf i).Asked ∧ (f.bindHead i m).MappedRests i := by
  have hbound : ∀ {g : Fabric} {bd : Binding}, (g.surf i).head = .bound bd → (g.surf i).Asked ∧ g.MappedRests i := by
    intro g bd hg
    refine ⟨?_, fun m hm => ?_⟩
    · rw [Surface.Asked, hg]
      trivial
    · rw [hg] at hm
      cases hm
  have hleft : ((!f.headReady i m || match m.plan with
      | .stream p => decide (p.runs ≠ [])
      | .direct _ => false) = true) → (f.surf i).Asked ∧ f.MappedRests i := by
    refine fun h => ⟨Surface.asked_of_mapped hh, fun m' hm => ?_⟩
    obtain rfl : m = m' := HeadPhase.mapped.inj (hh.symm.trans hm)
    exact h
  unfold Fabric.bindHead
  split
  case isTrue hr =>
    cases hp : m.plan with
    | direct ps =>
      dsimp only
      refine ⟨by rw [Fabric.surf_modSurf_same], hbound (bd := { buf := m.buf, issued := false, todo := ps, parts := [] }) ?_⟩
      rw [Fabric.surf_modSurf_same]
    | stream p =>
      dsimp only
      split
      case isTrue =>
        refine ⟨by rw [Fabric.surf_modSurf_same]; rfl, hbound (bd := { buf := m.buf, issued := false, todo := [], parts := [] }) ?_⟩
        rw [Fabric.surf_modSurf_same]
      case isFalse hne =>
        refine ⟨rfl, hleft ?_⟩
        rw [hp]
        simp [hne]
  case isFalse hr => exact ⟨rfl, hleft (by simp [hr])⟩

theorem Fabric.bindStage_spec (ha : (f.surf i).Asked) :
    ((f.bindStage i).surf i).lane = (f.surf i).lane ∧ ((f.bindStage i).surf i).Asked ∧ (f.bindStage i).MappedRests i := by
  unfold Fabric.bindStage
  cases hh : (f.surf i).head with
  | mapped m => exact f.bindHead_spec i m hh
  | fresh | waiting | bound bd => exact ⟨rfl, ha, fun m hm => by rw [hh] at hm; cases hm⟩

end

/-- A spill is what keeps the converter from going on without a part. -/
theorem handleWrite_spilled (b : Nat) (ps : List PixelMap) (slot : Option Slot) (run : Run)
    (hp : (handleWrite b slot run ps).part = none) (ht : (handleWrite b slot run ps).todo ≠ []) :
    (handleWrite b slot run ps).spilled ≠ none := by
  have hclosed : ∀ {slot : Option Slot} {run : Run} {todo : List PixelMap}, run ≠ [] → (closeRun slot run todo).part ≠ none := by
    intro slot run todo hne
    rw [closeRun, if_neg hne]
    exact Option.some_ne_none run
  induction ps generalizing slot run with
  | nil => exact absurd rfl ht
  | cons p ps ih =>
    by_cases hf : p.bytes.all Option.isSome = true
    · rw [handleWrite_full b slot run ps hf] at hp ht ⊢
      split at hp
      case isTrue hj =>
        rw [if_pos hj] at ht ⊢
        exact ih _ _ hp ht
      case isFalse hj => exact absurd hp (hclosed (not_or.mp hj).1)
    by_cases he : p.bytes.all Option.isNone = true
    · rw [handleWrite_skips b slot run ps hf he] at hp ht ⊢
      split at hp
      case isTrue hj =>
        rw [if_pos hj] at ht ⊢
        exact ih _ _ hp ht
      case isFalse hj => exact absurd hp (hclosed hj)
    cases slot with
    | none =>
      rw [handleWrite_takes b run ps hf he] at hp ht ⊢
      split at hp
      case isTrue hj =>
        rw [if_pos hj] at ht ⊢
        exact ih _ _ hp ht
      case isFalse hj => exact absurd hp (hclosed hj)
    | some t =>
      by_cases hs : slotIs (some t) p.px b = true
      · by_cases ha : (overlay t.bytes p.bytes).all Option.isSome = true
        · rw [handleWrite_fills b run ps hf he hs ha] at hp ht ⊢
          split at hp
          case isTrue hj =>
            rw [if_pos hj] at ht ⊢
            exact ih _ _ hp ht
          case isFalse hj => exact absurd hp (hclosed (not_or.mp hj).1)
        · rw [handleWrite_overlays b run ps hf he hs ha] at hp ht ⊢
          split at hp
          case isTrue hj =>
            rw [if_pos hj] at ht ⊢
            exact ih _ _ hp ht
          case isFalse hj => exact absurd hp (hclosed hj)
      · rw [handleWrite_spills b run ps hf he hs] at hp ⊢
        split at hp
        case isTrue hj =>
          rw [if_pos hj]
          exact Option.some_ne_none t
        case isFalse hj => exact absurd hp (hclosed hj)

theorem handleRead_spilled (b : Nat) (ps : List PixelMap) (slot : Option Slot) (run : Run)
    (hp : (handleRead b slot run ps).part = none) (ht : (handleRead b slot run ps).todo ≠ []) :
    (handleRead b slot run ps).spilled ≠ none := by
  have hclosed : ∀ {slot : Option Slot} {run : Run} {todo : List PixelMap}, run ≠ [] → (closeRun slot run todo).part ≠ none := by
    intro slot run todo hne
    rw [closeRun, if_neg hne]
    exact Option.some_ne_none run
  induction ps generalizing slot run with
  | nil => exact absurd rfl ht
  | cons p ps ih =>
    rw [handleRead] at hp ht ⊢
    split at hp
    case isTrue hs =>
      rw [if_pos hs]
      split at hp
      case isTrue hj =>
        rw [if_pos hj]
        obtain ⟨t, rfl, -⟩ := slotIs_iff.mp hs
        exact Option.some_ne_none t
      case isFalse hj => exact absurd hp (hclosed hj)
    case isFalse hs =>
      rw [if_neg hs] at ht ⊢
      split at hp
      case isTrue hj =>
        rw [if_pos hj] at ht ⊢
        exact ih _ _ hp ht
      case isFalse hj => exact absurd hp (hclosed (not_or.mp hj).1)

/-- What the converter makes of a bound head's pixels. -/
def handled (kind : AccessKind) (b : Nat) (slot : Option Slot) (ps : List PixelMap) : Handled :=
  match kind with
  | .write => handleWrite b slot [] ps
  | .read => handleRead b slot [] ps

theorem handled_spilled {kind : AccessKind} {b : Nat} {slot : Option Slot} {ps : List PixelMap}
    (hp : (handled kind b slot ps).part = none) (ht : (handled kind b slot ps).todo ≠ []) :
    (handled kind b slot ps).spilled ≠ none := by
  cases kind with
  | write => exact handleWrite_spilled b ps slot [] hp ht
  | read => exact handleRead_spilled b ps slot [] hp ht

section
variable (f : Fabric) (env : Env) (i : Fin 8) (q : LaneReq)

/-- The converter's go, by what it makes of the pixels. -/
theorem Fabric.handleHead_eq (bd : Binding) : f.handleHead i q bd =
    if bd.parts ≠ [] ∨ bd.todo = [] ∨ (f.surf i).mergeOutstanding = true then f
    else
      (match (handled q.req.kind bd.buf (f.surf i).slot bd.todo).spilled with
        | some t => f.createMerge i t
        | none => f).modSurf i (fun su =>
          { su with
            slot := (handled q.req.kind bd.buf (f.surf i).slot bd.todo).slot
            head := .bound { bd with
              todo := (handled q.req.kind bd.buf (f.surf i).slot bd.todo).todo
              parts := (handled q.req.kind bd.buf (f.surf i).slot bd.todo).part.toList } }) := by
  unfold Fabric.handleHead handled
  cases q.req.kind <;> rfl

/-- The converter has done what it can: a part is formed, nothing is left, or a merge is outstanding. -/
def Fabric.BoundRests (f : Fabric) (i : Fin 8) : Prop :=
  ∀ bd, (f.surf i).head = .bound bd → bd.parts ≠ [] ∨ bd.todo = [] ∨ (f.surf i).mergeOutstanding = true

theorem Fabric.handleHead_spec (bd : Binding) (hh : (f.surf i).head = .bound bd) :
    ((f.handleHead i q bd).surf i).lane = (f.surf i).lane ∧ (∃ bd', ((f.handleHead i q bd).surf i).head = .bound bd') ∧
      (f.handleHead i q bd).BoundRests i := by
  rw [Fabric.handleHead_eq]
  split
  case isTrue h =>
    refine ⟨rfl, ⟨bd, hh⟩, fun bd' hb => ?_⟩
    obtain rfl : bd = bd' := HeadPhase.bound.inj (hh.symm.trans hb)
    exact h
  case isFalse h =>
    generalize hx : handled q.req.kind bd.buf (f.surf i).slot bd.todo = x
    have hspill : x.part = none → x.todo ≠ [] → x.spilled ≠ none := fun h1 h2 => by
      rw [← hx] at h1 h2 ⊢
      exact handled_spilled h1 h2
    rw [Fabric.surf_modSurf_same]
    refine ⟨?_, ⟨_, rfl⟩, fun bd' hb => ?_⟩
    · cases x.spilled with
      | none => rfl
      | some t =>
        dsimp only
        rw [Fabric.surf_createMerge]
        rfl
    · rw [Fabric.surf_modSurf_same] at hb ⊢
      obtain rfl := HeadPhase.bound.inj hb
      dsimp only
      by_cases hp : x.part = none
      · by_cases ht : x.todo = []
        · exact .inr (.inl ht)
        · obtain ⟨t, ht⟩ := Option.ne_none_iff_exists'.mp (hspill hp ht)
          refine .inr (.inr ?_)
          rw [ht]
          dsimp only
          rw [Fabric.surf_createMerge]
          simp [Surface.mergeOutstanding, Surface.modBuf, Merge.outstanding, Slot.spilled]
      · obtain ⟨run, hr⟩ := Option.ne_none_iff_exists'.mp hp
        exact .inl (by rw [hr]; simp)

theorem Fabric.handleStage_spec (ha : (f.surf i).Asked) (hm : f.MappedRests i) :
    ((f.handleStage i q).surf i).lane = (f.surf i).lane ∧ ((f.handleStage i q).surf i).Asked ∧
      (f.handleStage i q).MappedRests i ∧ (f.handleStage i q).BoundRests i := by
  unfold Fabric.handleStage
  cases hh : (f.surf i).head with
  | bound bd =>
    obtain ⟨hl, ⟨bd', hb⟩, hr⟩ := f.handleHead_spec i q bd hh
    refine ⟨hl, ?_, fun m hm => ?_, hr⟩
    · dsimp only
      rw [Surface.Asked, hb]
      trivial
    · dsimp only at hm
      rw [hb] at hm
      cases hm
  | fresh | waiting | mapped m => exact ⟨rfl, ha, hm, fun bd hb => by rw [hh] at hb; cases hb⟩

/-- The head leaves the lane, a pending close applies, and the next request becomes head. -/
theorem Fabric.leaveLane_spec : ((f.leaveLane env i q).surf i).lane = (f.surf i).lane.tail ∧
    ((f.leaveLane env i q).surf i).head = .fresh := by
  have hbase : ((f.modSurf i (fun su => { su with lane := su.lane.tail, head := .fresh })).markDone q.id).surf i =
      { f.surf i with lane := (f.surf i).lane.tail, head := .fresh } := by
    have := (Fabric.beside_markDone (f.modSurf i (fun su => { su with lane := su.lane.tail, head := .fresh })) (i + 1) q.id).surf i
    rw [this (by simp), Fabric.surf_modSurf_same]
  unfold Fabric.leaveLane
  dsimp only
  split
  · split
    · obtain ⟨hl, hh⟩ := Fabric.surf_applyClose
        ((f.modSurf i (fun su => { su with lane := su.lane.tail, head := .fresh })).markDone q.id) env i _
      rw [hl, hh, hbase]
      exact ⟨rfl, rfl⟩
    · rw [Fabric.surf_modSurf_same, hbase]
      exact ⟨rfl, rfl⟩
  · rw [hbase]
    exact ⟨rfl, rfl⟩

/-- One go over the head: it has left the lane, or it has nothing left to do at once. -/
theorem Fabric.stepHead_spec : ((f.stepHead env i q).surf i).lane = (f.surf i).lane.tail ∧ ((f.stepHead env i q).surf i).head = .fresh ∨
    ((f.stepHead env i q).surf i).lane = (f.surf i).lane ∧ (f.stepHead env i q).headRests i = true := by
  rw [Fabric.stepHead_eq]
  obtain ⟨h1, a1⟩ := f.askStage_asked env i q
  obtain ⟨h2, a2, m2⟩ := (f.askStage env i q).bindStage_spec i a1
  obtain ⟨h3, a3, m3, b3⟩ := ((f.askStage env i q).bindStage i).handleStage_spec i q a2 m2
  have hlane := h3.trans (h2.trans h1)
  generalize ((f.askStage env i q).bindStage i).handleStage i q = g at a3 m3 b3 hlane
  unfold Fabric.leaveStage
  cases hh : (g.surf i).head with
  | fresh =>
    rw [Surface.Asked, hh] at a3
    exact a3.elim
  | waiting =>
    rw [Surface.Asked, hh] at a3
    refine .inr ⟨hlane, ?_⟩
    dsimp only
    rw [Fabric.headRests, hh]
    dsimp only
    rw [a3]
    rfl
  | mapped m =>
    refine .inr ⟨hlane, ?_⟩
    dsimp only
    rw [Fabric.headRests, hh]
    exact m3 m hh
  | bound bd =>
    dsimp only
    split
    case isTrue h =>
      rw [← hlane]
      exact .inl (g.leaveLane_spec env i q)
    case isFalse h =>
      refine .inr ⟨hlane, ?_⟩
      rw [Fabric.headRests, hh]
      dsimp only
      rw [Bool.or_eq_true, Bool.and_eq_true, decide_eq_true_eq, decide_eq_true_eq]
      rcases b3 bd hh with hp | ht | hm
      · exact .inl hp
      · exact .inl fun hp => h ⟨hp, ht⟩
      · by_cases hp : bd.parts = []
        · exact .inr ⟨fun ht => h ⟨hp, ht⟩, hm⟩
        · exact .inl hp

end

/-- With as many goes as it has requests, a lane comes to rest. -/
theorem Fabric.runLane_rests (env : Env) (i : Fin 8) (n : Nat) (f : Fabric) (hn : (f.surf i).lane.length ≤ n) :
    let g := Fabric.runLane env i n f
    (g.surf i).lane = [] ∨ (g.surf i).life ≠ .attached ∨ g.headRests i = true := by
  induction n generalizing f with
  | zero => exact .inl (List.eq_nil_of_length_eq_zero (Nat.le_zero.mp hn))
  | succ n ih =>
    unfold Fabric.runLane
    dsimp only
    split
    case isFalse hl => exact .inr (.inl hl)
    case isTrue hl =>
      cases hq : (f.surf i).lane with
      | nil => exact .inl hq
      | cons q qs =>
        dsimp only
        rcases f.stepHead_spec env i q with ⟨hlane, -⟩ | ⟨hlane, hrest⟩
        · refine ih _ ?_
          rw [hlane, hq]
          rw [hq] at hn
          simpa using hn
        · rw [Fabric.runLane_of_rests _ env i (.inr (.inr hrest))]
          exact .inr (.inr hrest)

end Sys2Proof.Machine

/-! # A fill that goes on (R12, R66, R79)

While a buffer is FILLING and no close is pending, the lane's heads are mapped into that buffer one after another: the surface
changes in its lane, head, slot, latch cursor and merges, and in nothing else. -/

namespace Sys2Proof.Machine

set_option Elab.async false

/-! ## The relation -/

/-- A fill has gone on: only the latch's cursor, the slot, the lane, its head, new merges and their counts have changed. -/
structure Surface.GoesOn (su su' : Surface) : Prop where
  rest : su' = { su with latch := su'.latch, slot := su'.slot, merges := su'.merges, lane := su'.lane, head := su'.head
                         bufs := su'.bufs } := by rfl
  bufs : ∃ n : Nat → Nat, su'.bufs = su.bufs.mapIdx (fun k x => { x with merges := x.merges + n k })
  latch : su'.latch.map (fun l => l.orient) = su.latch.map (fun l => l.orient) := by rfl
  merges : su.merges.map Merge.unstamped <+: su'.merges.map Merge.unstamped := by exact List.prefix_rfl
  lane : su'.lane <:+ su.lane := by exact List.suffix_rfl

theorem bufs_goOn_refl (l : List BufRec) : ∃ n : Nat → Nat, l = l.mapIdx (fun k x => { x with merges := x.merges + n k }) :=
  ⟨fun _ => 0, List.ext_getElem (by simp) fun k _ _ => by simp⟩

theorem Surface.GoesOn.refl (su : Surface) : su.GoesOn su := { bufs := bufs_goOn_refl _ }

theorem Surface.GoesOn.trans {a b c : Surface} (h : a.GoesOn b) (k : b.GoesOn c) : a.GoesOn c where
  rest := by rw [k.rest, h.rest]
  bufs := by
    obtain ⟨n, hn⟩ := h.bufs
    obtain ⟨m, hm⟩ := k.bufs
    refine ⟨fun x => n x + m x, ?_⟩
    rw [hm, hn, List.mapIdx_mapIdx]
    exact List.mapIdx_eq_mapIdx_iff.mpr fun _ _ => by simp [Nat.add_assoc]
  latch := k.latch.trans h.latch
  merges := h.merges.trans k.merges
  lane := k.lane.trans h.lane

section
variable {su su' : Surface} (h : su.GoesOn su')
include h

theorem Surface.GoesOn.buf {k : Nat} {x : BufRec} (hx : su.bufs[k]? = some x) :
    ∃ n, su'.bufs[k]? = some { x with merges := x.merges + n } := by
  obtain ⟨n, hn⟩ := h.bufs
  refine ⟨n k, ?_⟩
  rw [hn, List.getElem?_mapIdx, hx]
  rfl

theorem Surface.GoesOn.states : su'.states = su.states := by
  obtain ⟨n, hn⟩ := h.bufs
  rw [Surface.states, Surface.states, hn]
  exact List.ext_getElem (by simp) fun k _ _ => by simp

theorem Surface.GoesOn.filling : su'.filling = su.filling := by
  have key : ∀ v : Surface, v.filling = v.states.findIdx? (fun x => decide (x = .filling)) := fun v => by
    rw [Surface.states, List.findIdx?_map]
    rfl
  rw [key, key, h.states]

end

/-- A mapping without parts does not wrap the cursor. -/
def Mapping.Quiet (m : Mapping) : Prop := ∀ p, m.plan = .stream p → p.runs = [] → p.wraps = false

/-- The lane head, where there is one, is of the fill into buffer `b`. -/
def Surface.HeadIn (su : Surface) (b : Nat) : Prop :=
  match su.head with
  | .fresh => True
  | .waiting => False
  | .mapped m => m.buf = b
  | .bound bd => bd.buf = b

theorem gatherRuns_eq_nil {run : Run} {ps : List Placed} (h : gatherRuns run ps = []) : ps = [] := by
  induction ps generalizing run with
  | nil => rfl
  | cons p ps ih =>
    rw [gatherRuns] at h
    split at h
    · have := ih h
      subst this
      cases h
    · split at h
      · have := ih h
        subst this
        rw [gatherRuns, if_neg (by simp)] at h
        cases h
      · cases h

theorem streamWalk_wrapped (d : Descriptor) (l : FillLatch) (sl : StreamLatch) (base : Nat) (slot : Option Slot) (bytes : List Byte)
    (h : (streamWalk d l sl base slot bytes).placed = []) : (streamWalk d l sl base slot bytes).wrapped = false := by
  have key : ∀ (bytes : List Byte) (w : StreamWalk), (w.placed = [] → w.wrapped = false) →
      (bytes.foldl (streamByte d l sl base) w).placed = [] → (bytes.foldl (streamByte d l sl base) w).wrapped = false := by
    intro bytes
    induction bytes with
    | nil => exact fun w hw => hw
    | cons b bytes ih =>
      refine fun w hw => ih _ fun hp => ?_
      unfold streamByte at hp ⊢
      split
      case isTrue hwr =>
        rw [if_pos hwr] at hp
        exact hw hp
      case isFalse hwr =>
        rw [if_neg hwr] at hp
        split
        case isTrue hb =>
          rw [if_pos hb] at hp
          exact hw hp
        case isFalse hb =>
          rw [if_neg hb] at hp
          simp at hp
  exact key bytes _ (fun _ => rfl) h

theorem Surface.mapHead_buf (su : Surface) (b : Nat) (r : UpRequest) : (su.mapHead b r).buf = b := by
  unfold Surface.mapHead
  dsimp only
  split <;> rfl

theorem Surface.mapHead_quiet (su : Surface) (b : Nat) (r : UpRequest) : (su.mapHead b r).Quiet := by
  intro p hp hr
  unfold Surface.mapHead at hp
  dsimp only at hp
  split at hp
  · cases hp
  · obtain rfl := Plan.stream.inj hp
    exact streamWalk_wrapped _ _ _ _ _ _ (gatherRuns_eq_nil hr)

/-! ## The stages -/

/-- A fill has gone on in surface `i`, beside the copy engine and the events. -/
structure Fabric.FillOn (i : Fin 8) (f g : Fabric) : Prop where
  copy : g.copy = f.copy
  events : g.events = f.events
  surf : (f.surf i).GoesOn (g.surf i)

theorem Fabric.FillOn.refl (i : Fin 8) (f : Fabric) : Fabric.FillOn i f f := ⟨rfl, rfl, .refl _⟩

theorem Fabric.FillOn.trans {i : Fin 8} {f g h : Fabric} (a : Fabric.FillOn i f g) (b : Fabric.FillOn i g h) : Fabric.FillOn i f h :=
  ⟨b.copy.trans a.copy, b.events.trans a.events, a.surf.trans b.surf⟩

theorem Fabric.fillOn_modSurf (f : Fabric) (i : Fin 8) {g : Surface → Surface} (h : (f.surf i).GoesOn (g (f.surf i))) :
    Fabric.FillOn i f (f.modSurf i g) := ⟨rfl, rfl, by rw [Fabric.surf_modSurf_same]; exact h⟩

/-- No close is pending, and committing a mapping without parts will not make one so. -/
structure Surface.Open (su : Surface) : Prop where
  pending : su.closePending = false
  quiet : ∀ m, su.head = .mapped m → m.Quiet

/-- The fill into `b` is open, and the lane head is of it. -/
structure Surface.InFill (su : Surface) (b : Nat) : Prop where
  filling : su.filling = some b
  isOpen : su.Open
  head : su.HeadIn b

/-- A stage of the lane that has changed `f` into `g`: the fill has gone on, and the head is of the same fill. -/
structure Fabric.Stage (i : Fin 8) (f g : Fabric) : Prop where
  goesOn : Fabric.FillOn i f g
  isOpen : (g.surf i).Open
  head : ∀ b, (f.surf i).HeadIn b → (g.surf i).HeadIn b

theorem Fabric.Stage.refl {i : Fin 8} {f : Fabric} (h : (f.surf i).Open) : Fabric.Stage i f f := ⟨.refl i f, h, fun _ h => h⟩

theorem Fabric.Stage.trans {i : Fin 8} {f g h : Fabric} (a : Fabric.Stage i f g) (b : Fabric.Stage i g h) : Fabric.Stage i f h :=
  ⟨a.goesOn.trans b.goesOn, b.isOpen, fun k hk => b.head k (a.head k hk)⟩

theorem Fabric.Stage.inFill {i : Fin 8} {f g : Fabric} (a : Fabric.Stage i f g) {b : Nat} (h : (f.surf i).InFill b) :
    (g.surf i).InFill b := ⟨a.goesOn.surf.filling.trans h.filling, a.isOpen, a.head b h.head⟩

/-- A stage that leaves a bound or fresh head of the same fill. -/
theorem Fabric.Stage.of_head {i : Fin 8} {f g : Fabric} (hg : Fabric.FillOn i f g) (h : (f.surf i).Open)
    (hq : ∀ m, (g.surf i).head ≠ .mapped m) (hh : ∀ b, (f.surf i).HeadIn b → (g.surf i).HeadIn b) : Fabric.Stage i f g where
  goesOn := hg
  isOpen := ⟨by rw [hg.surf.rest]; exact h.pending, fun m hm => absurd hm (hq m)⟩
  head := hh

/-- The mark of a record may answer it, and changes nothing else. -/
theorem Fabric.markDone_books (f : Fabric) (id : Nat) : ∃ rs sent, f.markDone id = { f with records := rs, sent := sent } := by
  unfold Fabric.markDone Fabric.closeIfDone
  split
  · split
    · exact ⟨_, _, rfl⟩
    · exact ⟨_, _, rfl⟩
  · exact ⟨_, _, rfl⟩

theorem Surface.HeadIn.mapped {su : Surface} {b : Nat} {m : Mapping} (h : su.HeadIn b) (he : su.head = .mapped m) : m.buf = b := by
  rwa [Surface.HeadIn, he] at h

theorem Surface.HeadIn.bound {su : Surface} {b : Nat} {bd : Binding} (h : su.HeadIn b) (he : su.head = .bound bd) : bd.buf = b := by
  rwa [Surface.HeadIn, he] at h

theorem Fabric.createMerge_fillOn (f : Fabric) (i : Fin 8) (t : Slot) : Fabric.FillOn i f (f.createMerge i t) := by
  refine ⟨rfl, rfl, ?_⟩
  rw [Fabric.surf_createMerge]
  refine { rest := rfl, bufs := ⟨fun k => if t.buf = k then 1 else 0, ?_⟩, merges := ?_ }
  · refine List.ext_getElem? fun k => ?_
    simp only [Surface.modBuf, List.getElem?_modify, List.getElem?_mapIdx]
    cases (f.surf i).bufs[k]? with
    | none => rfl
    | some x => by_cases hk : t.buf = k <;> simp [hk]
  · change _ <+: ((f.surf i).merges ++ _).map _
    rw [List.map_append]
    exact List.prefix_append _ _

section
variable {f : Fabric} {i : Fin 8} (h : (f.surf i).Open)
include h

theorem Fabric.bindStage_stage : Fabric.Stage i f (f.bindStage i) := by
  unfold Fabric.bindStage
  cases he : (f.surf i).head with
  | fresh | waiting | bound bd => exact .refl h
  | mapped m =>
    dsimp only
    unfold Fabric.bindHead
    split
    case isFalse => exact .refl h
    case isTrue =>
      cases hplan : m.plan with
      | direct ps =>
        dsimp only
        refine .of_head (f.fillOn_modSurf i { bufs := bufs_goOn_refl _ }) h (fun m' hm => ?_) fun b hb => ?_
        · rw [Fabric.surf_modSurf_same] at hm
          cases hm
        · rw [Fabric.surf_modSurf_same]
          exact hb.mapped he
      | stream p =>
        dsimp only
        split
        case isFalse => exact .refl h
        case isTrue hr =>
          refine .of_head (f.fillOn_modSurf i { bufs := bufs_goOn_refl _, rest := ?_, latch := ?_ }) h (fun m' hm => ?_) fun b hb => ?_
          · simp only [Surface.commitStream, h.quiet m he p hplan hr, Bool.or_false]
          · simp only [Surface.commitStream, Option.map_map]
            rfl
          · rw [Fabric.surf_modSurf_same] at hm
            cases hm
          · rw [Fabric.surf_modSurf_same]
            exact hb.mapped he

theorem Fabric.handleStage_stage (q : LaneReq) : Fabric.Stage i f (f.handleStage i q) := by
  unfold Fabric.handleStage
  cases he : (f.surf i).head with
  | fresh | waiting | mapped m => exact .refl h
  | bound bd =>
    dsimp only
    rw [Fabric.handleHead_eq]
    split
    case isTrue => exact .refl h
    case isFalse =>
      generalize handled q.req.kind bd.buf (f.surf i).slot bd.todo = x
      have hg : Fabric.FillOn i f ((match x.spilled with
          | some t => f.createMerge i t
          | none => f).modSurf i (fun su =>
            { su with slot := x.slot, head := .bound { bd with todo := x.todo, parts := x.part.toList } })) := by
        cases x.spilled with
        | none => exact f.fillOn_modSurf i { bufs := bufs_goOn_refl _ }
        | some t => exact (f.createMerge_fillOn i t).trans (Fabric.fillOn_modSurf _ i { bufs := bufs_goOn_refl _ })
      refine .of_head hg h (fun m' hm => ?_) fun b hb => ?_
      · rw [Fabric.surf_modSurf_same] at hm
        cases hm
      · rw [Fabric.surf_modSurf_same]
        exact show bd.buf = b from hb.bound he

theorem Fabric.leaveStage_stage (env : Env) (q : LaneReq) : Fabric.Stage i f (f.leaveStage env i q) := by
  unfold Fabric.leaveStage
  cases he : (f.surf i).head with
  | fresh | waiting | mapped m => exact .refl h
  | bound bd =>
    dsimp only
    split
    case isFalse => exact .refl h
    case isTrue =>
      have hbase := f.fillOn_modSurf i (g := fun su => { su with lane := su.lane.tail, head := .fresh })
        { bufs := bufs_goOn_refl _, lane := List.tail_suffix _ }
      have hmark : Fabric.FillOn i f ((f.modSurf i (fun su => { su with lane := su.lane.tail, head := .fresh })).markDone q.id) := by
        obtain ⟨rs, sent, hm⟩ := Fabric.markDone_books (f.modSurf i (fun su => { su with lane := su.lane.tail, head := .fresh })) q.id
        rw [hm]
        exact hbase.trans ⟨rfl, rfl, .refl _⟩
      have hfresh := (f.leaveLane_spec env i q).2
      refine .of_head ?_ h (fun m' hm => ?_) fun b _ => ?_
      · unfold Fabric.leaveLane
        dsimp only
        rw [if_neg]
        · exact hmark
        · rw [hmark.surf.rest]
          simp [h.pending]
      · rw [hfresh] at hm
        cases hm
      · rw [Surface.HeadIn, hfresh]
        trivial

/-- The stages after a head has asked. -/
theorem Fabric.laterStages_stage (env : Env) (q : LaneReq) :
    Fabric.Stage i f (((f.bindStage i).handleStage i q).leaveStage env i q) := by
  have g2 := Fabric.bindStage_stage h
  have g3 := Fabric.handleStage_stage g2.isOpen q
  exact g2.trans (g3.trans (Fabric.leaveStage_stage g3.isOpen env q))

end

theorem Surface.open_mapInto {su : Surface} (h : su.closePending = false) (b : Nat) (r : UpRequest) :
    ({ su with head := .mapped (su.mapHead b r) } : Surface).Open :=
  ⟨h, fun _ hm => HeadPhase.mapped.inj hm ▸ su.mapHead_quiet b r⟩

section
variable {f : Fabric} {i : Fin 8} {b : Nat} (h : (f.surf i).InFill b)
include h

theorem Fabric.askStage_fillOn (env : Env) (q : LaneReq) :
    Fabric.FillOn i f (f.askStage env i q) ∧ ((f.askStage env i q).surf i).InFill b := by
  obtain ⟨hf, hp, hh⟩ := h
  unfold Fabric.askStage
  cases he : (f.surf i).head with
  | fresh =>
    dsimp only
    rw [Fabric.askBuffer, hf]
    dsimp only
    have hg : Fabric.FillOn i f (f.mapInto i b q) := f.fillOn_modSurf i { bufs := bufs_goOn_refl _ }
    refine ⟨hg, hg.surf.filling.trans hf, ?_, ?_⟩
    · rw [Fabric.surf_mapInto]
      exact Surface.open_mapInto hp.pending b q.req
    · rw [Fabric.surf_mapInto]
      exact Surface.mapHead_buf _ _ _
  | waiting =>
    rw [Surface.HeadIn, he] at hh
    exact hh.elim
  | mapped m | bound bd => exact ⟨.refl i f, hf, hp, hh⟩

/-- The stages after a head has been mapped into the fill. -/
theorem Fabric.laterStages_fillOn (env : Env) (q : LaneReq) :
    Fabric.FillOn i f (((f.bindStage i).handleStage i q).leaveStage env i q) ∧
      ((((f.bindStage i).handleStage i q).leaveStage env i q).surf i).InFill b :=
  have g := Fabric.laterStages_stage h.isOpen env q
  ⟨g.goesOn, g.inFill h⟩

theorem Fabric.stepHead_fillOn (env : Env) (q : LaneReq) :
    Fabric.FillOn i f (f.stepHead env i q) ∧ ((f.stepHead env i q).surf i).InFill b := by
  rw [Fabric.stepHead_eq]
  obtain ⟨g1, h1⟩ := Fabric.askStage_fillOn h env q
  obtain ⟨g2, h2⟩ := Fabric.laterStages_fillOn h1 env q
  exact ⟨g1.trans g2, h2⟩

end

theorem Fabric.runLane_fillOn {i : Fin 8} {b : Nat} (env : Env) (n : Nat) (f : Fabric) (h : (f.surf i).InFill b) :
    Fabric.FillOn i f (Fabric.runLane env i n f) ∧ ((Fabric.runLane env i n f).surf i).InFill b := by
  induction n generalizing f with
  | zero => exact ⟨.refl i f, h⟩
  | succ n ih =>
    unfold Fabric.runLane
    split
    · split
      · next q qs hq =>
        obtain ⟨g1, h1⟩ := Fabric.stepHead_fillOn h env q
        obtain ⟨g2, h2⟩ := ih _ h1
        exact ⟨g1.trans g2, h2⟩
      · exact ⟨.refl i f, h⟩
    · exact ⟨.refl i f, h⟩

/-! ## The merge claim -/

/-- The stamp of a merge claim is all that its presentation changes. -/
theorem Fabric.presentMerge_spec (f : Fabric) (i : Fin 8) :
    (f.presentMerge i).copy = f.copy ∧ (f.presentMerge i).events = f.events ∧ (f.presentMerge i).records = f.records ∧
      (f.presentMerge i).sent = f.sent ∧
      (f.presentMerge i).surf i = { f.surf i with merges := ((f.presentMerge i).surf i).merges } ∧
      ((f.presentMerge i).surf i).merges.map Merge.unstamped = (f.surf i).merges.map Merge.unstamped := by
  unfold Fabric.presentMerge
  split
  · next m _ =>
    split
    · refine ⟨rfl, rfl, rfl, rfl, ?_, ?_⟩
      · rw [Fabric.surf_modSurf_same]
        rfl
      · rw [Fabric.surf_modSurf_same]
        simp only [Surface.modMerge, List.map_map]
        refine List.map_congr_left fun q _ => ?_
        simp only [Function.comp_apply]
        split <;> rfl
    · exact ⟨rfl, rfl, rfl, rfl, rfl, rfl⟩
  · exact ⟨rfl, rfl, rfl, rfl, rfl, rfl⟩

theorem Fabric.presentMerge_fillOn (f : Fabric) (i : Fin 8) : Fabric.FillOn i f (f.presentMerge i) := by
  obtain ⟨hc, he, -, -, hs, hm⟩ := f.presentMerge_spec i
  refine ⟨hc, he, ?_⟩
  rw [hs]
  exact { bufs := bufs_goOn_refl _, merges := by rw [← hm] }

/-! ## What a settled lane leaves of an open fill -/

/-- The lane is empty, or its head is of the fill into buffer `b`. -/
def Surface.Filled (su : Surface) (b : Nat) : Prop :=
  match su.head with
  | .fresh => su.lane = []
  | .waiting => False
  | .mapped m => m.buf = b
  | .bound bd => bd.buf = b

theorem Surface.filled_of_headIn {su : Surface} {b : Nat} (h : su.HeadIn b) (hl : su.head = .fresh → su.lane = []) : su.Filled b := by
  unfold Surface.HeadIn at h
  unfold Surface.Filled
  cases hh : su.head with
  | fresh => exact hl hh
  | waiting =>
    rw [hh] at h
    exact h
  | mapped m =>
    rw [hh] at h
    exact h
  | bound bd =>
    rw [hh] at h
    exact h

/-- A surface whose lane has settled: the lane is empty or its head is not fresh. -/
theorem Fabric.settleSurface_head (env : Env) (f : Fabric) (i : Fin 8) (hl : ((Fabric.settleSurface env f i).surf i).life = .attached)
    (hh : ((Fabric.settleSurface env f i).surf i).head = .fresh) : ((Fabric.settleSurface env f i).surf i).lane = [] := by
  have hs := ((Fabric.runLane env i ((f.surf i).lane.length + 1) f).presentMerge_spec i).2.2.2.2.1
  unfold Fabric.settleSurface at *
  rw [hs] at hl hh ⊢
  rcases Fabric.runLane_rests env i ((f.surf i).lane.length + 1) f (Nat.le_succ _) with h | h | h
  · exact h
  · exact absurd hl h
  · dsimp only at hh
    rw [Fabric.headRests, hh] at h
    cases h

theorem Fabric.settle_fillOn {f : Fabric} {i : Fin 8} {b : Nat} (env : Env) (n : Nat) (h : (f.surf i).InFill b) :
    Fabric.FillOn i f ((Fabric.runLane env i n f).presentMerge i) ∧
      (((Fabric.runLane env i n f).presentMerge i).surf i).InFill b := by
  obtain ⟨g1, h1⟩ := Fabric.runLane_fillOn env n f h
  have g2 := (Fabric.runLane env i n f).presentMerge_fillOn i
  have hs := ((Fabric.runLane env i n f).presentMerge_spec i).2.2.2.2.1
  refine ⟨g1.trans g2, g2.surf.filling.trans h1.filling, ?_, ?_⟩
  · rw [hs]
    exact ⟨h1.isOpen.pending, h1.isOpen.quiet⟩
  · rw [hs]
    exact h1.head

end Sys2Proof.Machine

/-! # A head that asks for a buffer (R89 to R93) -/

namespace Sys2Proof.Machine

set_option Elab.async false

theorem Fabric.modSurf_self (f : Fabric) (i : Fin 8) {g : Surface → Surface} (h : g (f.surf i) = f.surf i) : f.modSurf i g = f := by
  unfold Fabric.modSurf
  rw [h, Fabric.surf, vectorGet, Vector.set_getElem_self]

/-! ## The preferred FREE buffer (R90) -/

theorem Surface.bufsIn_sorted (su : Surface) (st : BufState) : (su.bufsIn st).Pairwise (· < ·) := by
  unfold Surface.bufsIn
  exact List.pairwise_lt_range.filter _

theorem Surface.newestOf_spec (su : Surface) {l : List Nat} (hl : l.Pairwise (· < ·)) {b : Nat} (h : su.newestOf l = some b) :
    b ∈ l ∧ ∀ k ∈ l, (su.buf k).content ≤ (su.buf b).content ∧ (k < b → (su.buf k).content < (su.buf b).content) := by
  induction l generalizing b with
  | nil => cases h
  | cons x xs ih =>
    obtain ⟨hx, hxs⟩ := List.pairwise_cons.mp hl
    rw [Surface.newestOf] at h
    cases hn : su.newestOf xs with
    | none =>
      rw [hn] at h
      obtain rfl := Option.some.inj h
      have : xs = [] := by
        cases xs with
        | nil => rfl
        | cons y ys =>
          rw [Surface.newestOf] at hn
          split at hn
          · cases hn
          · split at hn <;> cases hn
      subst this
      simp
    | some k =>
      rw [hn] at h
      dsimp only at h
      obtain ⟨hk, hmax⟩ := ih hxs hn
      split at h
      · next hle =>
        obtain rfl := Option.some.inj h
        refine ⟨List.mem_cons_self, fun y hy => ?_⟩
        rcases List.mem_cons.mp hy with rfl | hy
        · exact ⟨Nat.le_refl _, fun h => absurd h (Nat.lt_irrefl _)⟩
        · exact ⟨(hmax y hy).1.trans hle, fun h => absurd h (Nat.not_lt.mpr (Nat.le_of_lt (hx y hy)))⟩
      · next hle =>
        obtain rfl := Option.some.inj h
        refine ⟨List.mem_cons_of_mem _ hk, fun y hy => ?_⟩
        rcases List.mem_cons.mp hy with rfl | hy
        · exact ⟨Nat.le_of_lt (Nat.lt_of_not_le hle), fun _ => Nat.lt_of_not_le hle⟩
        · exact hmax y hy

theorem Surface.newestOf_eq_none {su : Surface} {l : List Nat} (h : su.newestOf l = none) : l = [] := by
  cases l with
  | nil => rfl
  | cons x xs =>
    rw [Surface.newestOf] at h
    split at h
    · cases h
    · split at h <;> cases h

theorem find?_sorted {l : List Nat} (hl : l.Pairwise (· < ·)) {p : Nat → Bool} {b : Nat} (hb : b ∈ l) (hp : p b = true)
    (hlt : ∀ k ∈ l, k < b → p k = false) : l.find? p = some b := by
  obtain ⟨pre, post, rfl⟩ := List.append_of_mem hb
  refine List.find?_eq_some_iff_append.mpr ⟨hp, pre, post, rfl, fun a ha => ?_⟩
  rw [hlt a (List.mem_append_left _ ha) ?_]
  · rfl
  · exact (List.pairwise_append.mp hl).2.2 a ha b List.mem_cons_self

theorem Surface.FirstChoice.chooseFree {su : Surface} {b : Nat} (h : su.FirstChoice b) : su.chooseFree = some b := by
  obtain ⟨r, ⟨hr, hst⟩, h⟩ := h
  have hmem : ∀ k, k ∈ su.bufsIn .free ↔ ∃ x, su.bufs[k]? = some x ∧ x.st = .free := fun k => Surface.mem_bufsIn
  have hsort := su.bufsIn_sorted .free
  have hb : b ∈ su.bufsIn .free := (hmem b).mpr ⟨r, hr, hst⟩
  have hknown : ∀ x : BufRec, su.history.any (fun e => e.seq == x.content) = true ↔ ∃ e ∈ su.history, e.seq = x.content := by
    intro x
    simp
  have hnone : (∀ (k : Nat) (x : BufRec), (su.bufs[k]? = some x ∧ x.st = .free) → ¬ (su.frameCounter ≠ 0 ∧ x.content = su.frameCounter)) →
      (su.bufsIn .free).find? (fun b => decide (su.frameCounter ≠ 0) && (su.buf b).content == su.frameCounter) = none := by
    refine fun h => List.find?_eq_none.mpr fun k hk => ?_
    obtain ⟨x, hx, hxs⟩ := (hmem k).mp hk
    rw [Surface.buf_of_some hx]
    simpa using h k x ⟨hx, hxs⟩
  unfold Surface.chooseFree
  dsimp only
  rcases h with ⟨hn, hlt⟩ | ⟨hnn, hk, hmax, hlt⟩ | ⟨hnn, hlt⟩
  · rw [find?_sorted hsort hb]
    · rfl
    · rw [Surface.buf_of_some hr]
      simpa using hn
    · intro k hk hkb
      obtain ⟨x, hx, hxs⟩ := (hmem k).mp hk
      rw [Surface.buf_of_some hx]
      simpa using hlt k x hkb ⟨hx, hxs⟩
  · rw [hnone hnn, Option.none_or]
    have hkl : b ∈ (su.bufsIn .free).filter (fun b => su.history.any (fun e => e.seq == (su.buf b).content)) := by
      rw [List.mem_filter, Surface.buf_of_some hr]
      exact ⟨hb, (hknown r).mpr hk⟩
    cases hno : su.newestOf ((su.bufsIn .free).filter (fun b => su.history.any (fun e => e.seq == (su.buf b).content))) with
    | none =>
      rw [Surface.newestOf_eq_none hno] at hkl
      cases hkl
    | some k =>
      obtain ⟨hkm, hkmax⟩ := su.newestOf_spec (hsort.filter _) hno
      rw [Option.some_or]
      obtain ⟨h1, h2⟩ := hkmax b hkl
      obtain ⟨hkf, hkk⟩ := List.mem_filter.mp hkm
      obtain ⟨x, hx, hxs⟩ := (hmem k).mp hkf
      rw [Surface.buf_of_some hx] at hkk h1 h2
      rw [Surface.buf_of_some hr] at h1 h2
      have hkx := (hknown x).mp hkk
      have h3 := hmax k x ⟨hx, hxs⟩ hkx
      refine congrArg some (Nat.le_antisymm (Nat.le_of_not_lt fun hbk => ?_) (Nat.le_of_not_lt fun hkb => ?_))
      · have := h2 hbk
        omega
      · have := hlt k x hkb ⟨hx, hxs⟩ hkx
        omega
  · have hkl : (su.bufsIn .free).filter (fun b => su.history.any (fun e => e.seq == (su.buf b).content)) = [] := by
      refine List.filter_eq_nil_iff.mpr fun k hk => ?_
      obtain ⟨x, hx, hxs⟩ := (hmem k).mp hk
      rw [Surface.buf_of_some hx, hknown]
      exact (hnn k x ⟨hx, hxs⟩).2
    rw [hnone fun k x hx => (hnn k x hx).1, hkl, Option.none_or]
    have hhead := find?_sorted hsort hb (p := fun _ => true) rfl fun k hk hkb => by
      obtain ⟨x, hx, hxs⟩ := (hmem k).mp hk
      exact absurd ⟨hx, hxs⟩ (hlt k x hkb)
    cases hl : su.bufsIn .free with
    | nil =>
      rw [hl] at hb
      cases hb
    | cons y ys =>
      rw [hl] at hhead
      exact hhead

theorem Surface.reclaimable_of_split {su : Surface} {pre post : List Nat} {c : Nat} (hp : su.present = pre ++ c :: post)
    (hpre : ∀ k ∈ pre, (su.buf k).hold = true) (hc : (su.buf c).hold = false) : su.reclaimable = some c := by
  refine List.find?_eq_some_iff_append.mpr ⟨by simp [hc], pre, post, hp, fun a ha => by simp [hpre a ha]⟩

theorem Surface.reclaimable_eq_none {su : Surface} (h : ∀ k ∈ su.present, (su.buf k).hold = true) : su.reclaimable = none :=
  List.find?_eq_none.mpr fun k hk => by simp [h k hk]

/-! ## The open of a buffer (R91) -/

/-- The buffers after step 1 of an open: at most a source hold has been set. -/
theorem Fabric.bufs_decideCopy (f : Fabric) (env : Env) (i : Fin 8) (b : Nat) {k : Nat} {x : BufRec}
    (hx : (f.surf i).bufs[k]? = some x) : ∃ h, ((f.decideCopy env i b).surf i).bufs[k]? = some { x with hold := h } := by
  unfold Fabric.decideCopy
  dsimp only
  split
  · exact ⟨x.hold, hx⟩
  · split
    · refine ⟨x.hold, ?_⟩
      rw [Fabric.surf_logSurf, Fabric.surf_modSurf_same]
      exact hx
    · next src _ =>
      have hbufs : ∀ j : CopyJob, j.surface = i → (((f.modBuf i src (fun r => { r with hold := true })).addJob j).surf i).bufs =
          ((f.modBuf i src (fun r => { r with hold := true })).surf i).bufs := by
        intro j hj
        unfold Fabric.addJob
        split
        · rw [hj, Fabric.surf_modSurf_same]
        · rfl
      rw [hbufs _ rfl, Fabric.surf_modBuf_same, Surface.bufs_modBuf, hx]
      by_cases hk : src = k
      · exact ⟨true, by simp [hk]⟩
      · exact ⟨x.hold, by simp [hk]⟩

/-- Surface `o` is `su` with its buffer `c` opened. -/
structure Surface.OpensAs (su o : Surface) (c : Nat) : Prop where
  rest : o = { su with bufs := o.bufs, history := o.history, deferred := o.deferred, latch := some su.desc.newLatch, holdWait := 0
                       holdReached := false }
  opened : ∃ y, o.bufs[c]? = some y ∧ y.st = .filling ∧ y.content = 0 ∧ y.written = [] ∧ y.touched = false ∧ y.damaged = false ∧
    y.age = 0
  others : ∀ k x, k ≠ c → su.bufs[k]? = some x → ∃ h, o.bufs[k]? = some { x with hold := h }
  filling : o.filling = some c

theorem Surface.filling_eq_of_states {su : Surface} {c : Nat} (hc : su.states[c]? = some .filling)
    (ho : ∀ k, k < c → su.states[k]? ≠ some .filling) : su.filling = some c := by
  rw [Surface.filling]
  rw [Surface.states_getElem?] at hc
  obtain ⟨x, hx, hst⟩ := Option.map_eq_some_iff.mp hc
  obtain ⟨hlt, rfl⟩ := List.getElem?_eq_some_iff.mp hx
  refine List.findIdx?_eq_some_iff_getElem.mpr ⟨hlt, decide_eq_true hst, fun k hk => ?_⟩
  have := ho k hk
  rw [Surface.states_getElem?, List.getElem?_eq_getElem (by omega)] at this
  simpa using this

theorem Fabric.openBuffer_opensAs {f : Fabric} (env : Env) {i : Fin 8} {c : Nat} {x : BufRec} (hx : (f.surf i).bufs[c]? = some x)
    (hn : (f.surf i).filling = none) : (f.surf i).OpensAs ((f.openBuffer env i c).surf i) c := by
  have hd := (f.surf_decideCopy env i c).1
  have hbuf : ∀ k, ((f.openBuffer env i c).surf i).bufs[k]? = if c = k then (((f.decideCopy env i c).surf i).bufs[k]?).map (fun r =>
      { r with st := .filling, content := 0, written := [], touched := false, damaged := false, age := 0 })
      else ((f.decideCopy env i c).surf i).bufs[k]? := by
    intro k
    rw [Fabric.surf_openBuffer, Surface.bufs_modBuf]
  obtain ⟨h, hc⟩ := f.bufs_decideCopy env i c hx
  have hopened : ((f.openBuffer env i c).surf i).bufs[c]? = some
      { x with hold := h, st := .filling, content := 0, written := [], touched := false, damaged := false, age := 0 } := by
    rw [hbuf, if_pos rfl, hc]
    rfl
  have hothers : ∀ k x, k ≠ c → (f.surf i).bufs[k]? = some x → ∃ h, ((f.openBuffer env i c).surf i).bufs[k]? = some { x with hold := h } := by
    intro k x hk hx
    rw [hbuf, if_neg (Ne.symm hk)]
    exact f.bufs_decideCopy env i c hx
  refine { rest := ?_, opened := ⟨_, hopened, rfl, rfl, rfl, rfl, rfl, rfl⟩, others := hothers, filling := ?_ }
  · rw [Fabric.surf_openBuffer, hd]
    rfl
  · refine Surface.filling_eq_of_states (by rw [Surface.states_getElem?, hopened]; rfl) fun k hk hf => ?_
    rw [Surface.states_getElem?] at hf
    obtain ⟨y, hy, hst⟩ := Option.map_eq_some_iff.mp hf
    rw [hbuf, if_neg (by omega)] at hy
    have hst' : ((f.decideCopy env i c).surf i).states[k]? = some .filling := by
      rw [Surface.states_getElem?, hy, ← hst]
      rfl
    rw [(f.surf_decideCopy env i c).2, Surface.states_getElem?] at hst'
    obtain ⟨z, hz, hzs⟩ := Option.map_eq_some_iff.mp hst'
    exact Surface.filling_none.mp hn z (List.mem_of_getElem? hz) hzs

/-- RECLAIM's part before the open (R92). -/
def Fabric.dropReady (f : Fabric) (env : Env) (i : Fin 8) (c : Nat) : Fabric :=
  (f.modSurf i (fun su => { su with present := su.present.erase c })).logSurf env .frameDropped i (some c) ((f.surf i).buf c).content 0

theorem Fabric.surf_dropReady (f : Fabric) (env : Env) (i : Fin 8) (c : Nat) :
    (f.dropReady env i c).surf i = { f.surf i with present := (f.surf i).present.erase c } := by
  unfold Fabric.dropReady
  rw [Fabric.surf_logSurf, Fabric.surf_modSurf_same]

theorem Fabric.reclaimBuffer_eq (f : Fabric) (env : Env) (i : Fin 8) (c : Nat) :
    f.reclaimBuffer env i c = (f.dropReady env i c).openBuffer env i c := by
  unfold Fabric.reclaimBuffer Fabric.dropReady
  dsimp only
  rw [Fabric.surf_modSurf_same]
  rfl

theorem Fabric.dropReady_filling (f : Fabric) (env : Env) (i : Fin 8) (c : Nat) :
    ((f.dropReady env i c).surf i).filling = (f.surf i).filling := by
  rw [Fabric.surf_dropReady]
  rfl

/-! ## The head asks, and the lane settles -/

/-- The buffer that a head finds, and the fabric with it opened. -/
inductive Fabric.Finds (f : Fabric) (env : Env) (i : Fin 8) : Nat → Fabric → Prop
  | free {c} : (f.surf i).chooseFree = some c → f.Finds env i c (f.openBuffer env i c)
  | reclaimed {c} : (f.surf i).head = .fresh → (f.surf i).chooseFree = none → (f.surf i).desc.reclaim = true →
      (f.surf i).reclaimable = some c → f.Finds env i c ((f.dropReady env i c).openBuffer env i c)

theorem Fabric.Finds.unique {f g g' : Fabric} {env : Env} {i : Fin 8} {c c' : Nat} (h : f.Finds env i c g) (h' : f.Finds env i c' g') :
    c = c' ∧ g = g' := by
  cases h with
  | free hc =>
    cases h' with
    | free hc' =>
      obtain rfl := Option.some.inj (hc.symm.trans hc')
      exact ⟨rfl, rfl⟩
    | reclaimed _ hn => exact absurd (hn.symm.trans hc) (by simp)
  | reclaimed _ hn _ hc =>
    cases h' with
    | free hc' => exact absurd (hn.symm.trans hc') (by simp)
    | reclaimed _ _ _ hc' =>
      obtain rfl := Option.some.inj (hc.symm.trans hc')
      exact ⟨rfl, rfl⟩

theorem Surface.reclaimable_mem {su : Surface} {c : Nat} (h : su.reclaimable = some c) : c ∈ su.present :=
  List.mem_of_find?_eq_some h

/-- The surface with the buffer that the head finds opened: `w` is the surface as the open finds it. -/
theorem Fabric.Finds.opensAs {f g : Fabric} {env : Env} {i : Fin 8} {c : Nat} (h : f.Finds env i c g)
    (hp : (f.surf i).head = .fresh → (f.surf i).chooseFree = none → (f.surf i).desc.reclaim = true →
      (f.surf i).reclaimable = some c → c < (f.surf i).bufs.length) (hf : (f.surf i).filling = none) :
    ∃ w, w.OpensAs (g.surf i) c ∧ ((f.surf i).chooseFree = some c ∧ w = f.surf i ∨
      (f.surf i).head = .fresh ∧ (f.surf i).chooseFree = none ∧ (f.surf i).desc.reclaim = true ∧ (f.surf i).reclaimable = some c ∧
        w = { f.surf i with present := (f.surf i).present.erase c }) := by
  cases h with
  | free hc =>
    obtain ⟨x, hx, -⟩ := Surface.chooseFree_some hc
    exact ⟨_, Fabric.openBuffer_opensAs env hx hf, .inl ⟨hc, rfl⟩⟩
  | reclaimed hh hn hr hc =>
    have hlt := hp hh hn hr hc
    have hx : ((f.dropReady env i c).surf i).bufs[c]? = some (f.surf i).bufs[c] := by
      rw [Fabric.surf_dropReady]
      exact List.getElem?_eq_getElem hlt
    refine ⟨_, Fabric.openBuffer_opensAs env hx ((f.dropReady_filling env i c).trans hf), .inr ⟨hh, hn, hr, hc, ?_⟩⟩
    rw [Fabric.surf_dropReady]

theorem Fabric.openBuffer_pending (f : Fabric) (env : Env) (i : Fin 8) (c : Nat) :
    ((f.openBuffer env i c).surf i).closePending = (f.surf i).closePending := by
  rw [Fabric.surf_openBuffer, (f.surf_decideCopy env i c).1]
  rfl

theorem Fabric.Finds.pending {f g : Fabric} {env : Env} {i : Fin 8} {c : Nat} (h : f.Finds env i c g) :
    (g.surf i).closePending = (f.surf i).closePending := by
  cases h with
  | free => exact f.openBuffer_pending env i c
  | reclaimed => exact (Fabric.openBuffer_pending _ env i c).trans (by rw [Fabric.surf_dropReady])

theorem Fabric.Finds.inFill {f g : Fabric} {env : Env} {i : Fin 8} {c : Nat} (h : f.Finds env i c g) {w : Surface}
    (ho : w.OpensAs (g.surf i) c) (hp : (f.surf i).closePending = false) (q : LaneReq) : ((g.mapInto i c q).surf i).InFill c := by
  rw [Fabric.surf_mapInto]
  refine ⟨ho.filling, Surface.open_mapInto ?_ c q.req, Surface.mapHead_buf _ _ _⟩
  rw [h.pending, hp]

/-- Nothing follows a head that waits. -/
theorem Fabric.laterStages_of_waiting {f : Fabric} {i : Fin 8} (env : Env) (q : LaneReq) (h : (f.surf i).head = .waiting) :
    ((f.bindStage i).handleStage i q).leaveStage env i q = f := by
  rw [Fabric.bindStage, h]
  dsimp only
  rw [Fabric.handleStage, h]
  dsimp only
  rw [Fabric.leaveStage, h]

section
variable {f : Fabric} {i : Fin 8} {q : LaneReq} {qs : List LaneReq} (env : Env)
  (hl : (f.surf i).life = .attached) (hq : (f.surf i).lane = q :: qs) (hf : (f.surf i).filling = none)
  (hp : (f.surf i).closePending = false) (hh : (f.surf i).head = .fresh ∨ (f.surf i).head = .waiting)
include hh hf

/-- The first stage of a head without a FILLING buffer. -/
theorem Fabric.askStage_cases :
    (∃ c g, f.Finds env i c g ∧ f.askStage env i q = g.mapInto i c q) ∨
    ((f.surf i).chooseFree = none ∧
      ((f.surf i).head = .fresh → (f.surf i).desc.reclaim = true → (f.surf i).reclaimable = none) ∧
      f.askStage env i q = f.modSurf i (fun su => { su with head := .waiting })) := by
  unfold Fabric.askStage
  rcases hh with hh | hh
  · rw [hh]
    dsimp only
    rw [Fabric.askBuffer, hf]
    dsimp only
    rcases f.obtainBuffer_cases env i with ⟨c, hc, ho⟩ | ⟨c, hn, hr, hc, ho⟩ | ⟨hn, hr, ho⟩
    · exact .inl ⟨c, _, .free hc, by rw [ho]⟩
    · exact .inl ⟨c, _, .reclaimed hh hn hr hc, by rw [ho, Fabric.reclaimBuffer_eq]⟩
    · exact .inr ⟨hn, fun _ => hr, by rw [ho]⟩
  · rw [hh]
    dsimp only
    rw [Fabric.serveWaiting]
    cases hc : (f.surf i).chooseFree with
    | some c => exact .inl ⟨c, _, .free hc, rfl⟩
    | none =>
      refine .inr ⟨rfl, fun h => (by cases h), ?_⟩
      dsimp only
      exact (f.modSurf_self i (by rw [← hh])).symm

include hl hq

/-- With nothing to open the head waits. -/
theorem Fabric.settleSurface_waits (hn : (f.surf i).chooseFree = none)
    (hr : (f.surf i).head = .fresh → (f.surf i).desc.reclaim = true → (f.surf i).reclaimable = none) :
    Fabric.settleSurface env f i = (f.modSurf i (fun su => { su with head := .waiting })).presentMerge i := by
  have hask : f.askStage env i q = f.modSurf i (fun su => { su with head := .waiting }) := by
    rcases Fabric.askStage_cases (q := q) env hf hh with ⟨c, g, hfind, -⟩ | ⟨-, -, hask⟩
    · cases hfind with
      | free h => exact absurd (hn.symm.trans h) (by simp)
      | reclaimed hfr _ hrec h => exact absurd ((hr hfr hrec).symm.trans h) (by simp)
    · exact hask
  have hs : (f.modSurf i (fun su => { su with head := .waiting })).surf i = { f.surf i with head := .waiting } :=
    f.surf_modSurf_same i _
  have hrest : (f.modSurf i (fun su => { su with head := .waiting })).headRests i = true := by
    rw [Fabric.headRests, hs]
    dsimp only
    rw [Option.isNone_iff_eq_none]
    exact Surface.chooseFree_isNone_congr (su := f.surf i) rfl hn
  unfold Fabric.settleSurface
  rw [Fabric.runLane, if_pos hl, hq]
  dsimp only
  rw [Fabric.stepHead_eq, hask]
  generalize f.modSurf i (fun su => { su with head := .waiting }) = g at hs hrest
  rw [Fabric.laterStages_of_waiting env q (by rw [hs]), Fabric.runLane_of_rests g env i (.inr (.inr hrest))]

include hp

/-- The lane of a head that finds a buffer settles: the buffer is opened and the fill goes on. -/
theorem Fabric.settleSurface_finds {c : Nat} {g : Fabric} (hfind : f.Finds env i c g)
    (hr : (f.surf i).head = .fresh → (f.surf i).chooseFree = none → (f.surf i).desc.reclaim = true →
      (f.surf i).reclaimable = some c → c < (f.surf i).bufs.length) :
    Fabric.FillOn i (g.mapInto i c q) (Fabric.settleSurface env f i) ∧ ((Fabric.settleSurface env f i).surf i).InFill c := by
  have hask : f.askStage env i q = g.mapInto i c q := by
    rcases Fabric.askStage_cases (q := q) env hf hh with ⟨c', g', hfind', hask⟩ | ⟨hn, hrec, -⟩
    · obtain ⟨rfl, rfl⟩ := hfind.unique hfind'
      exact hask
    · cases hfind with
      | free h => exact absurd (hn.symm.trans h) (by simp)
      | reclaimed hfr _ hreclaim h => exact absurd ((hrec hfr hreclaim).symm.trans h) (by simp)
  unfold Fabric.settleSurface
  rw [Fabric.runLane, if_pos hl, hq]
  dsimp only
  rw [Fabric.stepHead_eq, hask]
  obtain ⟨w, ho, -⟩ := hfind.opensAs hr hf
  obtain ⟨g1, h1⟩ := Fabric.laterStages_fillOn (hfind.inFill ho hp q) env q
  obtain ⟨g2, h2⟩ := Fabric.settle_fillOn env (q :: qs).length h1
  exact ⟨g1.trans g2, h2⟩

end

/-! ## Any lane without a pending close -/

/-- What a lane without a pending close leaves of its surface, whatever its head is: a buffer that is not FILLING then has the state and
the content it had. -/
structure Surface.Roams (su su' : Surface) : Prop where
  merges : su.merges.map Merge.unstamped <+: su'.merges.map Merge.unstamped
  filling : ∀ b, su.filling = some b → su'.filling = some b
  bufs : ∀ k x, su.bufs[k]? = some x → su'.filling ≠ some k → ∃ x', su'.bufs[k]? = some x' ∧ x'.st = x.st ∧ x'.content = x.content

theorem Surface.Roams.trans {a b c : Surface} (h : a.Roams b) (k : b.Roams c) : a.Roams c where
  merges := h.merges.trans k.merges
  filling x hx := k.filling x (h.filling x hx)
  bufs n x hx hn := by
    obtain ⟨x', hx', hs, hc⟩ := h.bufs n x hx fun e => hn (k.filling n e)
    obtain ⟨y, hy, hs', hc'⟩ := k.bufs n x' hx' hn
    exact ⟨y, hy, hs'.trans hs, hc'.trans hc⟩

theorem Surface.GoesOn.roams {a b : Surface} (h : a.GoesOn b) : a.Roams b where
  merges := h.merges
  filling x hx := h.filling.trans hx
  bufs n x hx _ := by
    obtain ⟨m, hm⟩ := h.buf hx
    exact ⟨_, hm, rfl, rfl⟩

theorem Surface.Roams.refl (su : Surface) : su.Roams su := (Surface.GoesOn.refl su).roams

/-- Changes beside the buffers and the merges. -/
theorem Surface.roams_of_eq {a b : Surface} (hb : b.bufs = a.bufs) (hm : b.merges = a.merges) : a.Roams b where
  merges := by rw [hm]
  filling x hx := by rw [Surface.filling, hb]; exact hx
  bufs n x hx _ := ⟨x, hb ▸ hx, rfl, rfl⟩

theorem Fabric.openBuffer_other (f : Fabric) (env : Env) (i : Fin 8) {c k : Nat} {x : BufRec} (hk : k ≠ c)
    (hx : (f.surf i).bufs[k]? = some x) : ∃ h, ((f.openBuffer env i c).surf i).bufs[k]? = some { x with hold := h } := by
  obtain ⟨h, hh⟩ := f.bufs_decideCopy env i c hx
  refine ⟨h, ?_⟩
  rw [Fabric.surf_openBuffer, Surface.bufs_modBuf, if_neg (Ne.symm hk)]
  simpa using hh

theorem Fabric.openBuffer_roams {f : Fabric} (env : Env) {i : Fin 8} (c : Nat) (hn : (f.surf i).filling = none) :
    (f.surf i).Roams ((f.openBuffer env i c).surf i) := by
  have hmerges : ((f.openBuffer env i c).surf i).merges = (f.surf i).merges := by
    rw [Fabric.surf_openBuffer, (f.surf_decideCopy env i c).1]
    rfl
  refine ⟨by rw [hmerges], fun b hb => absurd (hn.symm.trans hb) (by simp), fun k x hx hk => ?_⟩
  by_cases hkc : k = c
  · subst hkc
    exact absurd (Fabric.openBuffer_opensAs env hx hn).filling hk
  · obtain ⟨h, hh⟩ := f.openBuffer_other env i hkc hx
    exact ⟨_, hh, rfl, rfl⟩

theorem Fabric.Finds.roams {f g : Fabric} {env : Env} {i : Fin 8} {c : Nat} (h : f.Finds env i c g) (hn : (f.surf i).filling = none) :
    (f.surf i).Roams (g.surf i) := by
  cases h with
  | free => exact Fabric.openBuffer_roams env c hn
  | reclaimed =>
    refine Surface.Roams.trans (b := (f.dropReady env i c).surf i) ?_ (Fabric.openBuffer_roams env c ((f.dropReady_filling env i c).trans hn))
    rw [Fabric.surf_dropReady]
    exact Surface.roams_of_eq rfl rfl

/-- No close is pending, and a head waits only without a FILLING buffer. -/
structure Surface.Roaming (su : Surface) : Prop where
  isOpen : su.Open
  waits : su.head = .waiting → su.filling = none

section
variable {f : Fabric} {i : Fin 8} (env : Env) (h : (f.surf i).Roaming)
include h

theorem Fabric.askStage_roams (q : LaneReq) : (f.surf i).Roams ((f.askStage env i q).surf i) ∧ ((f.askStage env i q).surf i).Roaming := by
  have mapped : ∀ (g : Fabric) (c : Nat), (g.surf i).closePending = false → (f.surf i).Roams (g.surf i) →
      (f.surf i).Roams ((g.mapInto i c q).surf i) ∧ ((g.mapInto i c q).surf i).Roaming := by
    intro g c hp hg
    rw [Fabric.surf_mapInto]
    exact ⟨hg.trans (Surface.roams_of_eq rfl rfl), Surface.open_mapInto hp c q.req, fun hw => (by cases hw)⟩
  by_cases hask : ((f.surf i).head = .fresh ∨ (f.surf i).head = .waiting) ∧ (f.surf i).filling = none
  · rcases Fabric.askStage_cases (q := q) env hask.2 hask.1 with ⟨c, g, hfind, hask'⟩ | ⟨-, -, hask'⟩
    · rw [hask']
      exact mapped g c (hfind.pending.trans h.isOpen.pending) (hfind.roams hask.2)
    · rw [hask', Fabric.surf_modSurf_same]
      exact ⟨Surface.roams_of_eq rfl rfl, ⟨h.isOpen.pending, fun m hm => (by cases hm)⟩, fun _ => hask.2⟩
  · unfold Fabric.askStage
    cases hh : (f.surf i).head with
    | fresh =>
      dsimp only
      rw [Fabric.askBuffer]
      cases hf : (f.surf i).filling with
      | some b => exact mapped f b h.isOpen.pending (.refl _)
      | none => exact absurd ⟨.inl hh, hf⟩ hask
    | waiting => exact absurd ⟨.inr hh, h.waits hh⟩ hask
    | mapped m | bound bd => exact ⟨.refl _, h⟩

theorem Fabric.laterStages_roams (q : LaneReq) :
    (f.surf i).Roams ((((f.bindStage i).handleStage i q).leaveStage env i q).surf i) ∧
      ((((f.bindStage i).handleStage i q).leaveStage env i q).surf i).Roaming := by
  by_cases hw : (f.surf i).head = .waiting
  · rw [Fabric.laterStages_of_waiting env q hw]
    exact ⟨.refl _, h⟩
  · have g := Fabric.laterStages_stage h.isOpen env q
    refine ⟨g.goesOn.surf.roams, g.isOpen, fun he => ?_⟩
    obtain ⟨b, hb⟩ : ∃ b, (f.surf i).HeadIn b := by
      unfold Surface.HeadIn
      cases hh : (f.surf i).head with
      | fresh => exact ⟨0, trivial⟩
      | waiting => exact absurd hh hw
      | mapped m => exact ⟨_, rfl⟩
      | bound bd => exact ⟨_, rfl⟩
    have := g.head b hb
    rw [Surface.HeadIn, he] at this
    exact this.elim

theorem Fabric.stepHead_roams (q : LaneReq) : (f.surf i).Roams ((f.stepHead env i q).surf i) ∧ ((f.stepHead env i q).surf i).Roaming := by
  rw [Fabric.stepHead_eq]
  obtain ⟨g1, h1⟩ := Fabric.askStage_roams env h q
  obtain ⟨g2, h2⟩ := Fabric.laterStages_roams env h1 q
  exact ⟨g1.trans g2, h2⟩

end

theorem Fabric.runLane_roams {i : Fin 8} (env : Env) (n : Nat) (f : Fabric) (h : (f.surf i).Roaming) :
    (f.surf i).Roams ((Fabric.runLane env i n f).surf i) := by
  induction n generalizing f with
  | zero => exact .refl _
  | succ n ih =>
    unfold Fabric.runLane
    split
    · split
      · next q qs hq =>
        obtain ⟨g1, h1⟩ := Fabric.stepHead_roams env h q
        exact g1.trans (ih _ h1)
      · exact .refl _
    · exact .refl _

theorem Fabric.settleSurface_roams {f : Fabric} {i : Fin 8} (env : Env) (h : (f.surf i).Roaming) :
    (f.surf i).Roams ((Fabric.settleSurface env f i).surf i) :=
  (Fabric.runLane_roams env _ f h).trans (Fabric.presentMerge_fillOn _ i).surf.roams

end Sys2Proof.Machine

/-! # What a head without a FILLING buffer finds (R89 to R93) -/

namespace Sys2Proof.Machine

set_option Elab.async false

/-- Surface `v`, whose head is about to ask, differs from `u` only where the answer does not look: a CLOSING buffer may have become READY,
and a head that was waiting does not look at the present queue. -/
structure Surface.AsksAs (u v : Surface) (asks : Bool) : Prop where
  counter : v.frameCounter = u.frameCounter := by rfl
  history : v.history = u.history := by rfl
  desc : v.desc = u.desc := by rfl
  lane : v.lane = u.lane := by rfl
  holdWait : v.holdWait = u.holdWait := by rfl
  present : asks = true → v.present = u.present := by exact fun _ => rfl
  length : v.bufs.length = u.bufs.length := by rfl
  bufs : ∀ (k : Nat) (x : BufRec), u.bufs[k]? = some x →
    ∃ y, v.bufs[k]? = some y ∧ y.content = x.content ∧ y.hold = x.hold ∧ (y.st = x.st ∨ x.st = .closing ∧ y.st = .ready)

theorem Surface.AsksAs.refl (u : Surface) (asks : Bool) : u.AsksAs u asks where
  bufs _ x hx := ⟨x, hx, rfl, rfl, .inl rfl⟩

section
variable {u v : Surface} {asks : Bool} (h : u.AsksAs v asks)
include h

theorem Surface.AsksAs.back {k : Nat} {y : BufRec} (hy : v.bufs[k]? = some y) :
    ∃ x, u.bufs[k]? = some x ∧ y.content = x.content ∧ y.hold = x.hold ∧ (y.st = x.st ∨ x.st = .closing ∧ y.st = .ready) := by
  obtain ⟨hlt, -⟩ := List.getElem?_eq_some_iff.mp hy
  rw [h.length] at hlt
  have hx := List.getElem?_eq_getElem hlt
  obtain ⟨y', hy', hr⟩ := h.bufs k _ hx
  obtain rfl := Option.some.inj (hy.symm.trans hy')
  exact ⟨_, hx, hr⟩

/-- A FREE buffer of the one is a FREE buffer of the other, with the same content. -/
theorem Surface.AsksAs.free {k : Nat} {y : BufRec} (hy : v.bufs[k]? = some y) (hst : y.st = .free) :
    ∃ x, u.bufs[k]? = some x ∧ x.st = .free ∧ x.content = y.content := by
  obtain ⟨x, hx, hc, -, hs | ⟨-, hs⟩⟩ := h.back hy
  · exact ⟨x, hx, hs.symm.trans hst, hc.symm⟩
  · rw [hst] at hs
    cases hs

theorem Surface.AsksAs.firstChoice {c : Nat} (hc : u.FirstChoice c) : v.FirstChoice c := by
  obtain ⟨r, ⟨hr, hst⟩, hpref⟩ := hc
  obtain ⟨y, hy, hcont, -, hs⟩ := h.bufs c r hr
  have hyst : y.st = .free := by
    rcases hs with hs | ⟨hs, -⟩
    · exact hs.trans hst
    · rw [hst] at hs
      cases hs
  refine ⟨y, ⟨hy, hyst⟩, ?_⟩
  dsimp only
  rw [h.counter, h.history, hcont]
  have lift : ∀ {P : Nat → Nat → Prop}, (∀ k x, (u.bufs[k]? = some x ∧ x.st = .free) → P k x.content) →
      ∀ k x, (v.bufs[k]? = some x ∧ x.st = .free) → P k x.content := by
    intro P hP k x ⟨hx, hxs⟩
    obtain ⟨x', hx', hs', hc'⟩ := h.free hx hxs
    rw [← hc']
    exact hP k x' ⟨hx', hs'⟩
  rcases hpref with ⟨hn, hlt⟩ | ⟨hnn, hk, hmax, hlt⟩ | ⟨hnn, hlt⟩
  · refine .inl ⟨hn, fun k x hk hx => ?_⟩
    exact lift (P := fun k c' => k < c → ¬ (u.frameCounter ≠ 0 ∧ c' = u.frameCounter)) (fun k x hx hk => hlt k x hk hx) k x hx hk
  · refine .inr (.inl ⟨lift (P := fun _ c' => ¬ (u.frameCounter ≠ 0 ∧ c' = u.frameCounter)) hnn, hk, ?_, fun k x hk hx hn => ?_⟩)
    · exact lift (P := fun _ c' => (∃ e ∈ u.history, e.seq = c') → c' ≤ r.content) hmax
    · exact lift (P := fun k c' => k < c → (∃ e ∈ u.history, e.seq = c') → c' < r.content) (fun k x hx hk => hlt k x hk hx) k x hx hk hn
  · refine .inr (.inr ⟨lift (P := fun _ c' => ¬ (u.frameCounter ≠ 0 ∧ c' = u.frameCounter) ∧ ¬ ∃ e ∈ u.history, e.seq = c') hnn, fun k x hk hx => ?_⟩)
    exact lift (P := fun k _ => ¬ k < c) (fun k x hx hk => hlt k x hk hx) k x hx hk

theorem Surface.AsksAs.chooseFree_none (hn : ∀ x ∈ u.bufs, x.st ≠ .free) : v.chooseFree = none := by
  refine Surface.chooseFree_none.mpr fun y hy hst => ?_
  obtain ⟨k, hk⟩ := List.mem_iff_getElem?.mp hy
  obtain ⟨x, hx, hxs, -⟩ := h.free hk hst
  exact hn x (List.mem_of_getElem? hx) hxs

theorem Surface.AsksAs.hold (k : Nat) : (v.buf k).hold = (u.buf k).hold := by
  cases hx : u.bufs[k]? with
  | some x =>
    obtain ⟨y, hy, -, hh, -⟩ := h.bufs k x hx
    rw [Surface.buf_of_some hx, Surface.buf_of_some hy, hh]
  | none =>
    have hv : v.bufs[k]? = none := by
      rw [List.getElem?_eq_none_iff] at hx ⊢
      rw [h.length]
      exact hx
    simp only [Surface.buf, List.getD_eq_getElem?_getD, hx, hv]

end

theorem erase_of_split {pre post : List Nat} {c : Nat} (h : c ∉ pre) : (pre ++ c :: post).erase c = pre ++ post := by
  rw [List.erase_append_right _ h, List.erase_cons_head]

theorem Fabric.surf_runEngine (n : Nat) (f : Fabric) (i : Fin 8) :
    (Fabric.runEngine n f).surf i = { f.surf i with deferred := ((Fabric.runEngine n f).surf i).deferred } :=
  (Fabric.sameButJobs_runEngine n f).surf i

/-- The surface when the engine has run, too. -/
theorem State.surf_of_engine {t : State} {g : Fabric} (ht : t.fab = Fabric.runEngine 5 g) (i : Fin 8) :
    t.surf i = { g.surf i with deferred := (t.surf i).deferred } := by
  have := Fabric.surf_runEngine 5 g i
  rw [← ht] at this
  exact this

section
variable {f : Fabric} {i : Fin 8} {c : Nat} {g : Fabric} {env : Env} {t : State}
  (ht : t.fab = Fabric.runEngine 5 (Fabric.settleSurface env f i)) (hl : (f.surf i).life = .attached) (hq : (f.surf i).lane ≠ [])
  (hf : (f.surf i).filling = none) (hp : (f.surf i).closePending = false)
  (hh : (f.surf i).head = .fresh ∨ (f.surf i).head = .waiting) (hfind : f.Finds env i c g)
  (hr : (f.surf i).head = .fresh → (f.surf i).chooseFree = none → (f.surf i).desc.reclaim = true →
    (f.surf i).reclaimable = some c → c < (f.surf i).bufs.length)

include hfind hf hr in
/-- The surface of a head that has found a buffer. -/
theorem Fabric.Finds.surf : g.surf i = { f.surf i with
    bufs := (g.surf i).bufs, history := (g.surf i).history, deferred := (g.surf i).deferred, present := (g.surf i).present
    latch := some (f.surf i).desc.newLatch, holdWait := 0, holdReached := false } ∧
    (g.surf i).present = if (f.surf i).chooseFree = none then (f.surf i).present.erase c else (f.surf i).present := by
  obtain ⟨w, ho, hw⟩ := hfind.opensAs hr hf
  rcases hw with ⟨hc, rfl⟩ | ⟨-, hn, -, -, rfl⟩
  · rw [ho.rest, hc]
    exact ⟨rfl, rfl⟩
  · rw [ho.rest, hn]
    exact ⟨rfl, rfl⟩

include ht hl hq hf hp hh hfind hr

/-- What an open and the fill that goes on leave of the surface. -/
theorem State.surf_of_finds : t.surf i = { f.surf i with
      bufs := (t.surf i).bufs, history := (t.surf i).history, deferred := (t.surf i).deferred, present := (t.surf i).present
      latch := (t.surf i).latch, slot := (t.surf i).slot, merges := (t.surf i).merges, lane := (t.surf i).lane
      head := (t.surf i).head, holdWait := 0, holdReached := false } := by
  obtain ⟨q, qs, hqs⟩ := List.exists_cons_of_ne_nil hq
  have hrest := (Fabric.settleSurface_finds env hl hqs hf hp hh hfind hr).1.surf.rest
  have hts := State.surf_of_engine ht i
  rw [Fabric.surf_mapInto, (hfind.surf hf hr).1] at hrest
  generalize (Fabric.settleSurface env f i).surf i = r at *
  rw [hts, hrest]

/-- A head finds buffer `c`, and its lane settles: the buffer is open. -/
theorem State.opened_of_finds : t.Opened i c ∧
    (t.surf i).present = if (f.surf i).chooseFree = none then (f.surf i).present.erase c else (f.surf i).present := by
  obtain ⟨q, qs, hqs⟩ := List.exists_cons_of_ne_nil hq
  obtain ⟨hg, hin⟩ := Fabric.settleSurface_finds env hl hqs hf hp hh hfind hr
  obtain ⟨hs, hpres⟩ := hfind.surf hf hr
  obtain ⟨w, ho, -⟩ := hfind.opensAs hr hf
  obtain ⟨y, hy, hopen⟩ := ho.opened
  have hrest := hg.surf.rest
  have hlatch := hg.surf.latch
  have hhead := Surface.filled_of_headIn hin.head (fun h => Fabric.settleSurface_head env f i (by
    rw [hrest, Fabric.surf_mapInto, hs]
    exact hl) h)
  obtain ⟨n, hn⟩ := hg.surf.buf (k := c) (x := y) (by rw [Fabric.surf_mapInto]; exact hy)
  have hfill := hin.filling
  have hts := State.surf_of_engine ht i
  generalize Fabric.settleSurface env f i = r at *
  rw [Fabric.surf_mapInto, hs] at hrest hlatch
  unfold State.Opened
  rw [hts]
  refine ⟨⟨⟨_, hn, hopen⟩, hfill, ?_, ?_, hhead⟩, ?_⟩
  · rw [hrest]
  · dsimp only
    rw [hlatch, hrest]
    rfl
  · rw [hrest]
    exact hpres

end

section
variable {t : State} {f : Fabric} {env : Env} {i : Fin 8} {u : Surface} {asks : Bool}
  (ht : t.fab = Fabric.runEngine 5 (Fabric.settleSurface env f i)) (hu : u.AsksAs (f.surf i) asks)
  (hl : (f.surf i).life = .attached) (hq : (f.surf i).lane ≠ []) (hf : (f.surf i).filling = none)
  (hp : (f.surf i).closePending = false) (hh : (f.surf i).head = if asks = true then .fresh else .waiting)

include ht hu hl hq hf hp hh in
/-- R89 to R93. -/
theorem State.headDecided : t.HeadDecided i u asks := by
  have hts := State.surf_of_engine ht i
  obtain ⟨q, qs, hqs⟩ := List.exists_cons_of_ne_nil hq
  have hhead : (f.surf i).head = .fresh ∨ (f.surf i).head = .waiting := by
    rw [hh]
    cases asks
    · exact .inr rfl
    · exact .inl rfl
  have hfresh : (f.surf i).head = .fresh → asks = true := by
    rw [hh]
    cases asks
    · exact fun h => (by cases h)
    · exact fun _ => rfl
  have hreclaim : (f.surf i).desc.reclaim = u.desc.flags.getLsbD 0 := by rw [hu.desc]; rfl
  unfold State.HeadDecided
  dsimp only
  refine ⟨fun c hc => ?_, fun pre c post x hn hrec hsplit hpre hx hhold => ?_, fun hn hrec => ?_, fun k x hx hst hk => ?_⟩
  · have hcf := (hu.firstChoice hc).chooseFree
    exact (State.opened_of_finds ht hl hq hf hp hhead (.free hcf) fun _ hn => absurd (hcf.symm.trans hn) (by simp)).1
  · obtain ⟨ha, hrec⟩ := hrec
    have hcf := hu.chooseFree_none hn
    have hcand : (f.surf i).reclaimable = some c :=
      Surface.reclaimable_of_split ((hu.present ha).trans hsplit) (fun k hk => (hu.hold k).trans (hpre k hk))
        ((hu.hold c).trans (by rw [Surface.buf_of_some hx, hhold]))
    have hlt : c < (f.surf i).bufs.length := by
      rw [hu.length]
      exact (List.getElem?_eq_some_iff.mp hx).1
    have hnot : c ∉ pre := fun hc => by
      have := hpre c hc
      rw [Surface.buf_of_some hx, hhold] at this
      cases this
    obtain ⟨ho, hpres⟩ := State.opened_of_finds ht hl hq hf hp hhead
      (.reclaimed (by rw [hh, if_pos ha]) hcf (hreclaim.trans hrec) hcand) fun _ _ _ _ => hlt
    refine ⟨ho, ?_⟩
    rw [hpres, if_pos hcf, hu.present ha, hsplit, erase_of_split hnot]
  · have hcf := hu.chooseFree_none hn
    have hnone : asks = true → (f.surf i).desc.reclaim = true → (f.surf i).reclaimable = none := by
      intro ha hr
      refine Surface.reclaimable_eq_none fun k hk => ?_
      rw [hu.present ha] at hk
      rw [hu.hold k]
      exact hrec ⟨ha, hreclaim.symm.trans hr⟩ k hk
    have hwait := Fabric.settleSurface_waits env hl hqs hf hhead hcf fun hfr => hnone (hfresh hfr)
    obtain ⟨-, -, -, -, hs, -⟩ := (f.modSurf i (fun su => { su with head := .waiting })).presentMerge_spec i
    rw [← hwait, Fabric.surf_modSurf_same] at hs
    rw [hts, hs]
    exact ⟨rfl, hu.lane, hu.holdWait, hf⟩
  · have hroam := Fabric.settleSurface_roams env (f := f) (i := i) ⟨⟨hp, fun m hm => ?_⟩, fun _ => hf⟩
    · obtain ⟨y, hy, hyc, -, hys⟩ := hu.bufs k x hx
      obtain ⟨y', hy', hs, hc⟩ := hroam.bufs k y hy (fun hc => hk (by rw [hts]; exact hc))
      refine ⟨y', by rw [hts]; exact hy', ?_, hc.trans hyc⟩
      rcases hys with h | ⟨h, -⟩
      · exact hs.trans h
      · exact absurd h hst
    · rcases hhead with h | h
      · rw [h] at hm
        cases hm
      · rw [h] at hm
        cases hm

end

end Sys2Proof.Machine

/-! # A close over a present queue that names a CLOSING buffer

The statements about a close do not ask the present queue to hold READY buffers. A head that asks anew may then reclaim a buffer that is
CLOSING without a place in the close order; opened, it makes a job startable whose source it is, and the copy engine moves on though the
open itself has no copy set. -/

namespace Sys2Proof.Machine

set_option Elab.async false

/-- A lane request of one byte. -/
def straysRequest : LaneReq :=
  { id := 0, req := { source := 0, kind := .write, addr := 0, len := 1, tag := 0, bytes := [{ value := 0, enabled := true }] } }

/-- A surface under RECLAIM with a fill into buffer 0, a mapped STREAM head, and a CLOSING buffer 1 in the present queue. -/
def straysSurface : Surface :=
  { Surface.empty with
    life := .attached
    desc := { Descriptor.zero with flags := 1 }
    bufs := [{ BufRec.fresh 0 0 with st := .filling }, { BufRec.fresh 1 0 with st := .closing }, { BufRec.fresh 2 0 with st := .shown }]
    present := [1]
    lane := [straysRequest]
    head := .mapped { buf := 0, stripes := [],
                      plan := .stream { runs := [[]], slotAfter := none, cx := 0, cy := 0, wraps := false, overrun := 0 } } }

/-- A QUEUED copy job whose source is that CLOSING buffer. -/
def straysJob : CopyJob :=
  { surface := 0, source := 1, target := 2, stripes := [{ stripe := 0, st := .pending, chunks := 0, fault := false }] }

/-- The part with that surface and job, its link ready for a message. -/
def straysState : State :=
  { State.reset with
    link := { Link.reset with waitHigh := false }
    fab := { Fabric.reset with
      surfaces := Vector.ofFn fun k => if k = 0 then straysSurface else Surface.empty
      copy := { Fabric.reset.copy with queue := [straysJob] } } }

/-- The slots in use after a command. -/
def slotsAfter : Host.Outcome State Fault Refusal → Nat
  | .next t => t.fab.copy.slots.length
  | _ => 0

/-- Where a head reclaims a buffer without carry-forward, a close and what follows it leave the copy engine. -/
theorem State.AfterClose.copy {s t : State} {i : Fin 8} {u : Surface} {events : List EventRecord} (h : s.AfterClose t i u events)
    (hlane : u.lane ≠ []) (hfree : ∀ x ∈ u.bufs, x.st ≠ .free) (hflags : u.desc.flags = 1) {c : Nat} {post : List Nat} {x : BufRec}
    (hp : u.present = c :: post) (hx : u.bufs[c]? = some x) (hh : x.hold = false) : t.fab.copy = s.fab.copy := by
  obtain ⟨-, -, hafter⟩ := h
  obtain ⟨-, -, hreclaim, -⟩ := hafter hlane
  have hdecided := hreclaim hfree (by rw [hflags]; decide) [] c post x hp (fun _ hk => (by cases hk)) hx hh
  have hnone : ∀ k, ¬ ((s.modSurf i (fun _ => u)).surf i).Copies c k := by
    rintro k ⟨hcarry, -⟩
    rw [show (s.modSurf i (fun _ => u)).surf i = u from s.fab.surf_modSurf_same i _, hflags] at hcarry
    cases hcarry
  exact (hdecided.1 hnone).1.1

set_option maxRecDepth 4000 in
theorem strays_rest : straysState.AtRest := by decide

theorem strays_takes : straysState.Takes 0x30 [0] := by decide

theorem strays_buffersSafe : BuffersSafe straysSurface := by
  rw [buffersSafe_iff]
  decide

set_option maxRecDepth 4000 in
theorem strays_close : slotsAfter (exec (.close [0]) straysState) = 1 := by decide

/-- Refutes O34: the head that asks anew behind the close reclaims the CLOSING buffer of its present queue, which starts the QUEUED copy
job whose source that buffer is, though the open has no copy set. -/
theorem not_closeApplies : ¬ Obligations.CloseApplies := by
  unfold Obligations.CloseApplies
  intro h
  obtain ⟨t, u, events, ht, -, hclosed, hafter, -⟩ := h straysState 0 0 0 _ strays_takes rfl rfl rfl strays_rest strays_buffersSafe
    (.inr ⟨List.cons_ne_nil _ _, _, rfl⟩) rfl rfl rfl
  obtain ⟨hu, -⟩ := hclosed
  have hbufs : u.bufs = [{ BufRec.fresh 0 0 with st := .ready, content := 1 }, { BufRec.fresh 1 0 with st := .closing },
      { BufRec.fresh 2 0 with st := .shown }] := by
    rw [hu]
    rfl
  have hcopy := hafter.copy (c := 1) (post := [0]) (x := { BufRec.fresh 1 0 with st := .closing })
    (by rw [hu]; exact List.cons_ne_nil _ _) (by rw [hbufs]; decide) (by rw [hu]; rfl) (by rw [hu]; rfl) (by rw [hbufs]; rfl) rfl
  have hslots := strays_close
  rw [ht, slotsAfter, hcopy] at hslots
  cases hslots

/-! ## The same behind a grant -/

/-- The surface with a bound head at its last part, a close pending behind it, and a second request. -/
def straysBound : Surface :=
  { straysSurface with
    closePending := true
    lane := [straysRequest, { straysRequest with id := 1 }]
    head := .bound { buf := 0, issued := true, todo := [], parts := [[]] } }

/-- The part with that surface and the same job. -/
def straysGranting : State :=
  { State.reset with
    fab := { Fabric.reset with
      surfaces := Vector.ofFn fun k => if k = 0 then straysBound else Surface.empty
      copy := { Fabric.reset.copy with queue := [straysJob] } } }

set_option maxRecDepth 4000 in
theorem straysGranting_rest : straysGranting.AtRest := by decide

set_option maxRecDepth 4000 in
theorem straysGranting_claim : straysGranting.bestClaim = some (.lane 0) := by decide

set_option maxRecDepth 4000 in
theorem straysGranting_grant : slotsAfter (exec .grant straysGranting) = 1 := by decide

/-- The surface when the part has been issued, and its head has left the lane. -/
def straysLeft : Surface :=
  { straysBound with
    bufs := [{ BufRec.fresh 0 0 with st := .filling, prodWrites := 1, touched := true }, { BufRec.fresh 1 0 with st := .closing },
             { BufRec.fresh 2 0 with st := .shown }]
    lane := [{ straysRequest with id := 1 }]
    head := .fresh }

theorem straysLeft_buffersSafe : BuffersSafe straysLeft := by
  rw [buffersSafe_iff]
  decide

/-- What the lane's last part leaves when it has been issued. -/
theorem straysGranting_issues {a : Access} {f : Fabric} (h : straysGranting.Issues (.lane 0) a f) :
    f.copy = straysGranting.fab.copy ∧
      f.surf 0 = { straysLeft with
        lane := [straysRequest, { straysRequest with id := 1 }]
        head := .bound { buf := 0, issued := true, todo := [], parts := [] } } := by
  obtain ⟨q, qs, b, run, hq, -, ⟨bd, rest, hbd, hparts, rfl, rfl⟩ | ⟨m, -, -, hm, -⟩⟩ := h
  · obtain ⟨rfl, rfl⟩ := List.cons.inj hq
    obtain rfl := HeadPhase.bound.inj hbd
    obtain ⟨rfl, rfl⟩ := List.cons.inj hparts
    exact ⟨rfl, rfl⟩
  · cases hm

/-- Refutes O50: the pending close behind the last part lets the next request reclaim the CLOSING buffer of its present queue, which starts
the QUEUED copy job whose source that buffer is, though the open has no copy set. -/
theorem not_grantIssues : ¬ Obligations.GrantIssues := by
  unfold Obligations.GrantIssues
  intro h
  obtain ⟨t, u, k, a, ht, -, -, -, -, -, -, -, -, hissues, hlane⟩ := h.1 straysGranting (.lane 0) straysGranting_claim
  obtain ⟨hcopy, hsurf⟩ := straysGranting_issues hissues
  have hsurf : u.surf 0 = _ := hsurf
  obtain ⟨-, -, hclose⟩ := hlane straysGranting_rest 0 straysRequest [{ straysRequest with id := 1 }] _ rfl (by rw [hsurf]; rfl)
    (by rw [hsurf]) (by rw [hsurf]) rfl rfl (by decide)
  have hleft : ({ u.surf 0 with lane := [{ straysRequest with id := 1 }], head := .fresh } : Surface) = straysLeft := by rw [hsurf]; rfl
  rw [hleft] at hclose
  obtain ⟨w, events, ⟨hw, -⟩, hafter⟩ := hclose rfl straysLeft_buffersSafe rfl 0 _ rfl rfl
  have hv : (u.modSurf 0 (fun _ => straysLeft)).surf 0 = straysLeft := u.fab.surf_modSurf_same 0 _
  rw [hv] at hw
  have hbufs : w.bufs = [{ BufRec.fresh 0 0 with st := .closing, content := 1, prodWrites := 1, touched := true },
      { BufRec.fresh 1 0 with st := .closing }, { BufRec.fresh 2 0 with st := .shown }] := by
    rw [hw]
    rfl
  have hcopied : t.fab.copy = u.fab.copy := hafter.copy (c := 1) (post := []) (x := { BufRec.fresh 1 0 with st := .closing })
    (by rw [hw]; exact List.cons_ne_nil _ _) (by rw [hbufs]; decide) (by rw [hw]; rfl) (by rw [hw]; rfl) (by rw [hbufs]; rfl) rfl
  have hslots := straysGranting_grant
  rw [ht, slotsAfter, hcopied, hcopy] at hslots
  cases hslots

end Sys2Proof.Machine

/-! # The copy engine: the stripe selected, the chunk started (R138 to R142) -/

namespace Sys2Proof.Machine

set_option Elab.async false

theorem Fabric.names_of_jobOf {f : Fabric} {i : Fin 8} {b : Nat} {j : CopyJob} (h : f.jobOf i b = some j) :
    j.surface = i ∧ j.target = b := by
  unfold Fabric.jobOf at h
  exact CopyJob.isFor_iff.mp (List.find?_some (p := fun j : CopyJob => j.isFor i b) h)

/-- What a change of a job does to the engine. -/
theorem Fabric.copy_modJob (f : Fabric) (i : Fin 8) (b : Nat) (g : CopyJob → CopyJob) : (f.modJob i b g).copy =
    { f.copy with queue := f.copy.queue.map (fun q => if q.surface = i ∧ q.target = b then g q else q) } := by
  simp only [Fabric.modJob, Fabric.modSurf, CopyJob.isFor_iff]

theorem Fabric.copy_makeCurrent (f : Fabric) (j : CopyJob) (k : Nat) : (f.makeCurrent j k).copy =
    { f.copy with
      current := some { surface := j.surface, target := j.target, stripe := k,
                        row := k * (((f.surf j.surface).desc.height.toNat + 31) / 32), off := 0 }
      queue := f.copy.queue.map (fun q => if q.surface = j.surface ∧ q.target = j.target then
        { q with stripes := q.stripes.map (fun r => if r.stripe = k then { r with st := .copying } else r) } else q) } := by
  unfold Fabric.makeCurrent
  dsimp only
  rw [(f.sameButJobs_modJob j.surface j.target _).surf j.surface, Fabric.copy_modJob]
  rfl

/-- The chunk that the engine starts is the one at its position (R141). -/
theorem Fabric.copy_startChunk {f : Fabric} {c : CurrentStripe} {j : CopyJob} (hj : f.jobOf c.surface c.target = some j) :
    let d := (f.surf c.surface).desc
    let ch := (f.surf c.surface).chunkAt f.copy.nextChunk c.surface j.source c.target c.stripe c.row c.off
    (f.startChunk c).copy =
      { slots := f.copy.slots ++ [ch], nextChunk := f.copy.nextChunk + 1
        current := if c.off + ch.len < 4 * d.width.toNat then some { c with off := c.off + ch.len }
          else if c.row + 1 < min d.height.toNat ((c.stripe + 1) * ((d.height.toNat + 31) / 32)) then
            some { c with row := c.row + 1, off := 0 }
          else none
        queue := f.copy.queue.map (fun q => if q.surface = c.surface ∧ q.target = c.target then
          { q with stripes := q.stripes.map (fun r => if r.stripe = c.stripe then { r with chunks := r.chunks + 1 } else r) }
          else q) } := by
  have ht : j.target = c.target := (Fabric.names_of_jobOf hj).2
  have hp : ∀ d : Descriptor, d.pitchBytes = 64 * d.pitch.toNat := fun d => Nat.mul_comm _ _
  have he : ∀ (d : Descriptor) k, d.stripeEnd k = min d.height.toNat ((k + 1) * ((d.height.toNat + 31) / 32)) :=
    fun d k => Nat.min_comm _ _
  dsimp only
  unfold Fabric.startChunk
  rw [hj]
  dsimp only
  rw [Fabric.copy_modJob]
  simp only [ht, hp, he]
  rfl

/-- The engine only adds to the slots. -/
theorem Fabric.slots_runEngine (n : Nat) (f : Fabric) : f.copy.slots <+: (Fabric.runEngine n f).copy.slots := by
  have hselect : ∀ f : Fabric, f.select.copy.slots = f.copy.slots := by
    intro f
    unfold Fabric.select
    dsimp only
    split
    · rfl
    · split
      · split
        · rw [Fabric.copy_makeCurrent]
        · rfl
      · split
        · rfl
        · split
          · rw [Fabric.copy_makeCurrent]
          · rfl
  induction n generalizing f with
  | zero => exact List.prefix_rfl
  | succ n ih =>
    unfold Fabric.runEngine
    dsimp only
    split
    · next c _ =>
      split
      · refine List.IsPrefix.trans ?_ (ih _)
        cases hj : f.select.jobOf c.surface c.target with
        | none =>
          unfold Fabric.startChunk
          rw [hj, ← hselect f]
        | some j =>
          rw [Fabric.copy_startChunk hj, ← hselect f]
          exact List.prefix_append _ _
      · rw [hselect f]
    · rw [hselect f]

/-! ## Selection -/

/-- The QUEUED jobs that the engine may select. -/
def Fabric.candidates (f : Fabric) : List CopyJob := f.copy.queue.filter (fun j => f.startable j && j.lowestPending.isSome)

theorem Fabric.earliestHead_mem {f : Fabric} {l : List CopyJob} {j : CopyJob} (h : f.earliestHead l = some j) : j ∈ l := by
  induction l generalizing j with
  | nil => cases h
  | cons x xs ih =>
    rw [Fabric.earliestHead] at h
    cases hk : f.earliestHead xs with
    | none =>
      rw [hk] at h
      exact Option.some.inj h ▸ List.mem_cons_self
    | some k =>
      rw [hk] at h
      dsimp only at h
      split at h
      · exact Option.some.inj h ▸ List.mem_cons_self
      · exact Option.some.inj h ▸ List.mem_cons_of_mem _ (ih hk)

/-- A selection is of a candidate; the engine selects only without a current stripe. -/
theorem Fabric.select_cases (f : Fabric) :
    f.select = f ∨ f.copy.current = none ∧ ∃ j ∈ f.candidates, ∃ k, f.select = f.makeCurrent j k := by
  unfold Fabric.select
  cases hc : f.copy.current with
  | some c => exact .inl rfl
  | none =>
    simp only [Option.isSome_none, Bool.false_eq_true, if_false]
    split
    · next j hj =>
      have hmem : j ∈ f.candidates := List.mem_of_mem_filter (Fabric.earliestHead_mem hj)
      split
      · exact .inr ⟨trivial, j, hmem, _, rfl⟩
      · exact .inl rfl
    · split
      · exact .inl rfl
      · next j js hq =>
        have hmem : j ∈ f.candidates := by
          rw [Fabric.candidates, hq]
          exact List.mem_cons_self
        split
        · exact .inr ⟨trivial, j, hmem, _, rfl⟩
        · exact .inl rfl

/-- With one candidate the engine takes the stripe that the lane head waits on with its earliest pixel, else the lowest. -/
theorem Fabric.select_of_one {f : Fabric} {j : CopyJob} (hc : f.copy.current = none) (hj : f.candidates = [j])
    (hm : ∀ m, (f.surf j.surface).head = .mapped m → m.buf = j.target) {x : Nat}
    (hx : (f.waitedStripes j.surface).head?.or j.lowestPending = some x) : f.select = f.makeCurrent j x := by
  unfold Fabric.candidates at hj
  unfold Fabric.select
  simp only [hc, Option.isSome_none, Bool.false_eq_true, if_false, hj]
  cases hw : f.waitedStripes j.surface with
  | nil =>
    rw [hw] at hx
    simp only [List.filter_cons, hw, List.isEmpty_nil, Bool.not_true, Bool.false_eq_true, if_false, List.filter_nil,
      Fabric.earliestHead]
    rw [show j.lowestPending = some x from hx]
  | cons y ys =>
    rw [hw] at hx
    obtain rfl : y = x := Option.some.inj hx
    have hclaim : f.claimedStripe j = some y := by
      unfold Fabric.claimedStripe
      unfold Fabric.waitedStripes at hw
      cases hh : (f.surf j.surface).head with
      | mapped m =>
        dsimp only
        rw [if_pos (hm m hh), Fabric.waitedStripes, hh]
        rw [hh] at hw
        dsimp only at hw ⊢
        rw [hw]
        rfl
      | fresh | waiting | bound bd =>
        rw [hh] at hw
        cases hw
    simp only [List.filter_cons, hw, List.isEmpty_cons, Bool.not_false, if_true, List.filter_nil, Fabric.earliestHead, hclaim]

/-! ## One job at work -/

theorem Fabric.SameButJobs.startable {f g : Fabric} (h : f.SameButJobs g) (j : CopyJob) : g.startable j = f.startable j := by
  unfold Fabric.startable
  rw [h.surf j.surface]
  rfl

/-- The engine works on the one job behind `others`, of which it can select none. -/
structure Fabric.WorksOn (others : List CopyJob) (i : Fin 8) (source target : Nat) (set : List Nat) (x : Nat) (f : Fabric) : Prop where
  job : ∃ j, f.copy.queue = others ++ [j] ∧ j.surface = i ∧ j.source = source ∧ j.target = target ∧
    j.stripes.map (fun q => q.stripe) = set ∧ (∀ q ∈ j.stripes, q.st ≠ .done ∧ q.fault = false) ∧
    ∃ q ∈ j.stripes, q.stripe = x ∧ q.st = .copying
  current : ∀ c, f.copy.current = some c → c.surface = i ∧ c.target = target
  others : ∀ q ∈ others, q.surface ≠ i ∧ (f.startable q && q.lowestPending.isSome) = false

section
variable {others : List CopyJob} {i : Fin 8} {source target : Nat} {set : List Nat} {x : Nat} {f : Fabric}
  (h : f.WorksOn others i source target set x)
include h

/-- A change of the job's stripes that keeps their numbers and lets none be DONE or at fault. -/
theorem Fabric.WorksOn.modStripe {g : Fabric} (hs : f.SameButJobs g) {k : Nat} {m : StripeRec → StripeRec}
    (hm : ∀ r, (m r).stripe = r.stripe ∧ (m r).fault = r.fault ∧ ((m r).st = r.st ∨ (m r).st = .copying))
    (hq : g.copy.queue = f.copy.queue.map (fun q => if q.surface = i ∧ q.target = target then
      { q with stripes := q.stripes.map (fun r => if r.stripe = k then m r else r) } else q))
    (hc : ∀ c, g.copy.current = some c → c.surface = i ∧ c.target = target) : g.WorksOn others i source target set x where
  job := by
    obtain ⟨j, hj, hsurf, hsrc, htgt, hset, hst, y, hy, hyx, hyc⟩ := h.job
    have hm' : ∀ r : StripeRec, (if r.stripe = k then m r else r).stripe = r.stripe ∧ (if r.stripe = k then m r else r).fault = r.fault ∧
        ((if r.stripe = k then m r else r).st = r.st ∨ (if r.stripe = k then m r else r).st = .copying) := by
      intro r
      split
      · exact hm r
      · exact ⟨rfl, rfl, .inl rfl⟩
    refine ⟨{ j with stripes := j.stripes.map (fun r => if r.stripe = k then m r else r) }, ?_, hsurf, hsrc, htgt, ?_, ?_, ?_⟩
    · rw [hq, hj, List.map_append]
      congr 1
      · refine (List.map_congr_left fun q hq => ?_).trans (List.map_id _)
        rw [if_neg fun hn => (h.others q hq).1 hn.1]
        rfl
      · simp only [List.map_cons, List.map_nil, hsurf, htgt, and_self, if_true]
    · rw [← hset, List.map_map]
      exact List.map_congr_left fun r _ => (hm' r).1
    · intro q hq
      obtain ⟨r, hr, rfl⟩ := List.mem_map.mp hq
      refine ⟨?_, (hm' r).2.1.trans (hst r hr).2⟩
      rcases (hm' r).2.2 with e | e
      · rw [e]
        exact (hst r hr).1
      · rw [e]
        exact fun hn => (by cases hn)
    · refine ⟨_, List.mem_map_of_mem hy, (hm' y).1.trans hyx, ?_⟩
      rcases (hm' y).2.2 with e | e
      · exact e.trans hyc
      · exact e
  current := hc
  others q hq := ⟨(h.others q hq).1, by rw [hs.startable]; exact (h.others q hq).2⟩

theorem Fabric.WorksOn.select : f.select.WorksOn others i source target set x := by
  rcases f.select_cases with e | ⟨-, j, hj, k, e⟩
  · rw [e]
    exact h
  · obtain ⟨j', hj', hsurf, -, htgt, -⟩ := h.job
    obtain rfl : j = j' := by
      rw [Fabric.candidates, hj', List.filter_append,
        List.filter_eq_nil_iff.mpr fun q hq => by rw [(h.others q hq).2]; exact Bool.false_ne_true, List.nil_append] at hj
      exact List.mem_singleton.mp (List.mem_of_mem_filter hj)
    rw [e]
    refine h.modStripe (f.sameButJobs_makeCurrent j k) (k := k) (m := fun r => { r with st := .copying }) (fun r => ⟨rfl, rfl, .inr rfl⟩)
      (by rw [Fabric.copy_makeCurrent, hsurf, htgt]) fun c hc => ?_
    rw [Fabric.copy_makeCurrent] at hc
    obtain rfl := Option.some.inj hc
    exact ⟨hsurf, htgt⟩

theorem Fabric.WorksOn.startChunk {c : CurrentStripe} (hc : f.copy.current = some c) :
    (f.startChunk c).WorksOn others i source target set x := by
  obtain ⟨hci, hct⟩ := h.current c hc
  cases hj : f.jobOf c.surface c.target with
  | none =>
    unfold Fabric.startChunk
    rw [hj]
    exact ⟨h.job, fun c' hc' => (by cases hc'), h.others⟩
  | some j =>
    refine h.modStripe (f.sameButJobs_startChunk c) (k := c.stripe) (m := fun r => { r with chunks := r.chunks + 1 })
      (fun r => ⟨rfl, rfl, .inl rfl⟩) (by rw [Fabric.copy_startChunk hj, hci, hct]) fun c' hc' => ?_
    rw [Fabric.copy_startChunk hj] at hc'
    dsimp only at hc'
    split at hc'
    · obtain rfl := Option.some.inj hc'
      exact ⟨hci, hct⟩
    · split at hc'
      · obtain rfl := Option.some.inj hc'
        exact ⟨hci, hct⟩
      · cases hc'

end

theorem Fabric.WorksOn.runEngine {others : List CopyJob} {i : Fin 8} {source target : Nat} {set : List Nat} {x : Nat} (n : Nat)
    {f : Fabric} (h : f.WorksOn others i source target set x) : (Fabric.runEngine n f).WorksOn others i source target set x := by
  induction n generalizing f with
  | zero => exact h
  | succ n ih =>
    unfold Fabric.runEngine
    dsimp only
    cases hc : f.select.copy.current with
    | none => exact h.select
    | some c =>
      dsimp only
      split
      · exact ih (h.select.startChunk hc)
      · exact h.select

end Sys2Proof.Machine

/-! # What an open decides about carry-forward (R133 to R136) -/

namespace Sys2Proof.Machine

set_option Elab.async false

/-- The three decisions: no copy set, no source, or a job under source hold. -/
theorem Fabric.decideCopy_cases (f : Fabric) (env : Env) (i : Fin 8) (b : Nat) :
    (f.surf i).copySet b = [] ∧ f.decideCopy env i b = f ∨
    (f.surf i).copySet b ≠ [] ∧ (∀ (k : Nat) (y : BufRec), (f.surf i).bufs[k]? = some y → y.content ≠ (f.surf i).frameCounter) ∧
      f.decideCopy env i b = (f.modSurf i (fun su => { su with history := [] })).logSurf env .carryLost i (some b)
        (f.surf i).frameCounter 0 ∨
    (f.surf i).copySet b ≠ [] ∧ ∃ (k : Nat) (y : BufRec), (f.surf i).bufs[k]? = some y ∧ y.content = (f.surf i).frameCounter ∧
      (∀ (l : Nat) (z : BufRec), l < k → (f.surf i).bufs[l]? = some z → z.content ≠ (f.surf i).frameCounter) ∧
      f.decideCopy env i b = (f.modBuf i k (fun r => { r with hold := true })).addJob (newJob i k b ((f.surf i).copySet b)) := by
  unfold Fabric.decideCopy
  dsimp only
  by_cases hset : (f.surf i).copySet b = []
  · exact .inl ⟨hset, if_pos hset⟩
  · rw [if_neg hset]
    refine .inr ?_
    cases hk : (f.surf i).bufs.findIdx? (fun r => r.content == (f.surf i).frameCounter) with
    | none =>
      refine .inl ⟨hset, fun k y hy hc => ?_, rfl⟩
      rw [List.findIdx?_eq_none_iff] at hk
      have := hk y (List.mem_of_getElem? hy)
      simp [hc] at this
    | some k =>
      obtain ⟨hlt, hc, hmin⟩ := List.findIdx?_eq_some_iff_getElem.mp hk
      refine .inr ⟨hset, k, _, List.getElem?_eq_getElem hlt, by simpa using hc, fun l z hl hz hzc => ?_, rfl⟩
      obtain ⟨hll, rfl⟩ := List.getElem?_eq_some_iff.mp hz
      exact absurd (by simpa using hzc) (hmin l hl)

/-- The buffer whose content an open may not copy: the opened one holds another frame. -/
theorem Surface.Copies.content_ne {su : Surface} {b x : Nat} (h : su.Copies b x) : (su.buf b).content ≠ su.frameCounter := h.2.2.1

theorem Surface.copySet_ne_nil {su : Surface} {b : Nat} : su.copySet b ≠ [] ↔ ∃ x, su.Copies b x := by
  constructor
  · intro h
    obtain ⟨x, hx⟩ := List.exists_mem_of_ne_nil _ h
    exact ⟨x, Surface.mem_copySet.mp hx⟩
  · rintro ⟨x, hx⟩ h
    have := Surface.mem_copySet.mpr hx
    rw [h] at this
    cases this

/-! ## The new job -/

theorem newJob_stripes (i : Fin 8) (source target : Nat) (set : StripeSet) :
    (newJob i source target set).stripes.map (fun q => q.stripe) = set := by
  simp [newJob, Function.comp_def]

theorem newJob_untaken {i : Fin 8} {source target : Nat} {set : StripeSet} :
    ∀ q ∈ (newJob i source target set).stripes, q.st = .pending ∧ q.chunks = 0 ∧ q.fault = false := by
  intro q hq
  obtain ⟨k, -, rfl⟩ := List.mem_map.mp hq
  exact ⟨rfl, rfl, rfl⟩

theorem newJob_stateOf (i : Fin 8) (source target : Nat) (set : StripeSet) (k : Nat) :
    (newJob i source target set).stateOf k = if k ∈ set then some .pending else none := by
  unfold CopyJob.stateOf
  cases hf : (newJob i source target set).stripes.find? (fun r => r.stripe == k) with
  | none =>
    rw [if_neg]
    · rfl
    · intro hk
      have := List.find?_eq_none.mp hf { stripe := k, st := .pending, chunks := 0, fault := false } (List.mem_map_of_mem hk)
      simp at this
  | some q =>
    have hk := List.find?_some hf
    have hq := List.mem_of_find?_eq_some hf
    obtain ⟨y, hy, rfl⟩ := List.mem_map.mp hq
    obtain rfl : y = k := by simpa using hk
    rw [if_pos hy]
    rfl

theorem newJob_lowestPending (i : Fin 8) (source target : Nat) (set : StripeSet) :
    (newJob i source target set).lowestPending = set.head? := by
  cases set <;> rfl

/-! ## The buffers of an open -/

theorem Fabric.bufs_openBuffer (f : Fabric) (env : Env) (i : Fin 8) (c k : Nat) : ((f.openBuffer env i c).surf i).bufs[k]? =
    if c = k then (((f.decideCopy env i c).surf i).bufs[k]?).map (fun r =>
      { r with st := .filling, content := 0, written := [], touched := false, damaged := false, age := 0 })
    else ((f.decideCopy env i c).surf i).bufs[k]? := by
  rw [Fabric.surf_openBuffer, Surface.bufs_modBuf]

theorem Fabric.openBuffer_base (f : Fabric) (env : Env) (i : Fin 8) (c : Nat) {k : Nat} {x : BufRec} (hx : (f.surf i).bufs[k]? = some x) :
    ∃ y, ((f.openBuffer env i c).surf i).bufs[k]? = some y ∧ y.base = x.base := by
  obtain ⟨h, hh⟩ := f.bufs_decideCopy env i c hx
  rw [Fabric.bufs_openBuffer, hh]
  by_cases hk : c = k
  · rw [if_pos hk]
    exact ⟨_, rfl, rfl⟩
  · rw [if_neg hk]
    exact ⟨_, rfl, rfl⟩

/-- An open makes no source CLOSING that was not, and no other buffer's state changes. -/
theorem Fabric.openBuffer_states (f : Fabric) (env : Env) (i : Fin 8) {c k : Nat} (hk : k ≠ c) :
    ((f.openBuffer env i c).surf i).states[k]? = (f.surf i).states[k]? := by
  rw [Surface.states_getElem?, Fabric.bufs_openBuffer, if_neg (Ne.symm hk), ← Surface.states_getElem?, (f.surf_decideCopy env i c).2]

theorem Surface.chunkAt_congr {su su' : Surface} {id : Nat} {i : Fin 8} {source target stripe row off : Nat}
    (hd : su'.desc = su.desc) (hs : (su'.buf source).base = (su.buf source).base) (ht : (su'.buf target).base = (su.buf target).base) :
    su'.chunkAt id i source target stripe row off = su.chunkAt id i source target stripe row off := by
  unfold Surface.chunkAt
  rw [hd, hs, ht]

theorem Fabric.WorksOn.jobOf {others : List CopyJob} {i : Fin 8} {source target : Nat} {set : List Nat} {x : Nat} {f : Fabric}
    (h : f.WorksOn others i source target set x) : ∃ j, f.jobOf i target = some j ∧ j.source = source := by
  obtain ⟨j, hj, hsurf, hsrc, htgt, -⟩ := h.job
  refine ⟨j, ?_, hsrc⟩
  rw [Fabric.jobOf_eq_queue_or, hj, List.find?_append, List.find?_eq_none.mpr fun q hq hf => (h.others q hq).1 (CopyJob.isFor_iff.mp hf).1,
    Option.none_or]
  simp [CopyJob.isFor, hsurf, htgt]

/-- What the record of a surface says. -/
theorem Fabric.events_logSurf (f : Fabric) (env : Env) (kind : EventKind) (i : Fin 8) (b : Option Nat) (q d : Nat) :
    (f.logSurf env kind i b q d).events = appendEvent f.events
      { kind := kind, surface := BitVec.ofNat 8 i.val, pipe := (f.surf i).desc.pipe, buffer := idByte b, seq := BitVec.ofNat 32 q
        detail := BitVec.ofNat 16 d, stamp := env.now } := by
  have hp : idByte (some (f.surf i).desc.pipe.toNat) = (f.surf i).desc.pipe := by rw [idByte, BitVec.ofNat_toNat, BitVec.setWidth_eq]
  unfold Fabric.logSurf Fabric.log
  rw [hp]
  rfl

/-- A job joins the copy queue, or the deferred list behind a job of its surface. -/
theorem Fabric.addJob_cases (f : Fabric) (j : CopyJob) :
    (∃ q ∈ f.copy.queue, q.surface = j.surface) ∧
      f.addJob j = f.modSurf j.surface (fun su => { su with deferred := su.deferred ++ [j] }) ∨
    (∀ q ∈ f.copy.queue, q.surface ≠ j.surface) ∧ f.addJob j = { f with copy := { f.copy with queue := f.copy.queue ++ [j] } } := by
  unfold Fabric.addJob
  by_cases h : f.copy.queue.any (fun q => decide (q.surface = j.surface)) = true
  · rw [if_pos h]
    exact .inl ⟨by simpa using h, rfl⟩
  · rw [if_neg h]
    exact .inr ⟨by simpa using h, rfl⟩

/-! ## The engine takes up a new job -/

/-- A stripe made current: its first row, offset 0 (R139). -/
def CurrentStripe.start (su : Surface) (i : Fin 8) (target x : Nat) : CurrentStripe :=
  { surface := i, target := target, stripe := x, row := x * ((su.desc.height.toNat + 31) / 32), off := 0 }

/-- The stripe of a set that the head of a surface waits on with its earliest pixel. -/
def Surface.awaitedOf (su : Surface) (set : List Nat) : Option Nat :=
  match su.head with
  | .mapped m => m.stripes.find? (fun x => decide (x ∈ set))
  | _ => none

section
variable {r : Fabric} {others : List CopyJob} {i : Fin 8} {source target : Nat} {set : StripeSet}
  (hq : r.copy.queue = others ++ [newJob i source target set])
  (ho : ∀ q ∈ others, q.surface ≠ i ∧ (r.startable q && q.lowestPending.isSome) = false)
  (hm : ∀ m, (r.surf i).head = .mapped m → m.buf = target)
include hq ho hm

theorem Fabric.jobOf_newJob : r.jobOf i target = some (newJob i source target set) := by
  rw [Fabric.jobOf_eq_queue_or, hq, List.find?_append, List.find?_eq_none.mpr fun q hq hf => (ho q hq).1 (CopyJob.isFor_iff.mp hf).1,
    Option.none_or]
  simp [CopyJob.isFor, newJob]

theorem Fabric.waitedStripes_newJob : (r.waitedStripes i).head? = (r.surf i).awaitedOf set := by
  unfold Fabric.waitedStripes Surface.awaitedOf
  cases hh : (r.surf i).head with
  | fresh | waiting | bound bd => rfl
  | mapped m =>
    dsimp only
    rw [hm m hh, Fabric.jobOf_newJob hq ho hm]
    dsimp only
    rw [List.head?_filter]
    congr 1
    funext k
    rw [newJob_stateOf]
    by_cases hk : k ∈ set <;> simp [hk]

/-- An idle engine takes up a new job whose source is not CLOSING. -/
theorem Fabric.runEngine_newJob (hc : r.copy.current = none) (hs : r.startable (newJob i source target set) = true) {x : Nat}
    (hx : ((r.surf i).awaitedOf set).or set.head? = some x) :
    (Fabric.runEngine 5 r).WorksOn others i source target set x ∧
      (r.copy.slots.length < 4 → (Fabric.runEngine 5 r).copy.slots[r.copy.slots.length]? =
        some ((r.surf i).chunkAt r.copy.nextChunk i source target x (x * (((r.surf i).desc.height.toNat + 31) / 32)) 0)) := by
  have hxs : x ∈ set := by
    rcases Option.or_eq_some_iff.mp hx with h | ⟨-, h⟩
    · unfold Surface.awaitedOf at h
      cases hh : (r.surf i).head with
      | fresh | waiting | bound bd =>
        rw [hh] at h
        cases h
      | mapped m =>
        rw [hh] at h
        exact of_decide_eq_true (List.find?_some (p := fun x => decide (x ∈ set)) h)
    · exact List.mem_of_head? h
  have hpend : (newJob i source target set).lowestPending.isSome = true := by
    rw [newJob_lowestPending]
    cases set with
    | nil => cases hxs
    | cons y ys => rfl
  have hcand : r.candidates = [newJob i source target set] := by
    rw [Fabric.candidates, hq, List.filter_append,
      List.filter_eq_nil_iff.mpr fun q hq => by rw [(ho q hq).2]; exact Bool.false_ne_true]
    rw [List.nil_append, List.filter_cons, hs, hpend]
    rfl
  have hsel : r.select = r.makeCurrent (newJob i source target set) x := by
    refine Fabric.select_of_one hc hcand hm ?_
    rw [newJob_lowestPending]
    change ((r.waitedStripes i).head?.or _) = _
    rw [Fabric.waitedStripes_newJob hq ho hm]
    exact hx
  have hsame := r.sameButJobs_makeCurrent (newJob i source target set) x
  have hcopy := r.copy_makeCurrent (newJob i source target set) x
  have hworks : (r.makeCurrent (newJob i source target set) x).WorksOn others i source target set x := by
    refine ⟨⟨{ newJob i source target set with stripes := (newJob i source target set).stripes.map (fun q =>
      if q.stripe = x then { q with st := .copying } else q) }, ?_, rfl, rfl, rfl, ?_, ?_, ?_⟩, fun c hcur => ?_, fun q hq => ?_⟩
    · rw [hcopy]
      dsimp only
      rw [hq, List.map_append]
      refine congrArg₂ (· ++ ·) ((List.map_congr_left fun q hq => ?_).trans (List.map_id _)) ?_
      · rw [if_neg fun hn => (ho q hq).1 hn.1]
        rfl
      · rw [List.map_cons, if_pos ⟨rfl, rfl⟩]
        rfl
    · rw [List.map_map]
      refine (List.map_congr_left fun q _ => ?_).trans (newJob_stripes i source target set)
      rw [Function.comp_apply]
      split <;> rfl
    · intro q hq
      obtain ⟨q', hq', rfl⟩ := List.mem_map.mp hq
      obtain ⟨hst, -, hf⟩ := newJob_untaken q' hq'
      split
      · exact ⟨fun h => (by cases h), hf⟩
      · rw [hst]
        exact ⟨fun h => (by cases h), hf⟩
    · refine ⟨_, List.mem_map_of_mem (List.mem_map_of_mem hxs), ?_⟩
      rw [if_pos rfl]
      exact ⟨rfl, rfl⟩
    · rw [hcopy] at hcur
      obtain rfl := Option.some.inj hcur
      exact ⟨rfl, rfl⟩
    · rw [hsame.startable]
      exact ho q hq
  have hcur : (r.makeCurrent (newJob i source target set) x).copy.current =
      some (CurrentStripe.start (r.surf i) i target x) := by
    rw [hcopy]
    rfl
  have hslots : (r.makeCurrent (newJob i source target set) x).copy.slots = r.copy.slots := by rw [hcopy]
  unfold Fabric.runEngine
  dsimp only
  rw [hsel, hcur]
  dsimp only
  rw [hslots]
  refine ⟨?_, fun hlen => ?_⟩
  · split
    · exact (hworks.startChunk hcur).runEngine 4
    · exact hworks
  · rw [if_pos hlen]
    obtain ⟨j, hj, hsrc⟩ := hworks.jobOf
    have hchunk := Fabric.copy_startChunk (c := CurrentStripe.start (r.surf i) i target x) hj
    dsimp only at hchunk
    obtain ⟨more, hmore⟩ := Fabric.slots_runEngine 4 ((r.makeCurrent (newJob i source target set) x).startChunk
      (CurrentStripe.start (r.surf i) i target x))
    rw [← hmore, hchunk]
    dsimp only
    rw [hslots, List.append_assoc, List.getElem?_append_right (Nat.le_refl _), Nat.sub_self, hsrc]
    refine congrArg some ?_
    change ((r.makeCurrent (newJob i source target set) x).surf i).chunkAt (r.makeCurrent (newJob i source target set) x).copy.nextChunk
      i source target x _ 0 = _
    rw [hsame.surf i, hcopy]
    rfl

end

/-! ## The decision as the part shows it -/

/-- Fabric `f` is about to open a buffer of surface `i`, which stands in `s` as far as the decision looks. -/
structure State.OpensFrom (s : State) (f : Fabric) (i : Fin 8) : Prop where
  copy : f.copy = s.fab.copy
  bufs : (f.surf i).bufs = (s.surf i).bufs
  history : (f.surf i).history = (s.surf i).history
  desc : (f.surf i).desc = (s.surf i).desc
  counter : (f.surf i).frameCounter = (s.surf i).frameCounter
  deferred : (f.surf i).deferred = (s.surf i).deferred

theorem State.OpensFrom.copySet {s : State} {f : Fabric} {i : Fin 8} (h : s.OpensFrom f i) (b : Nat) :
    (f.surf i).copySet b = (s.surf i).copySet b := by
  unfold Surface.copySet Surface.buf
  rw [h.bufs, h.history, h.desc, h.counter]

section
variable {s t : State} {f r : Fabric} {env : Env} {i : Fin 8} {b : Nat} {q : LaneReq} {x : BufRec}
  (hs : s.OpensFrom f i) (hrest : f.engineRests = true) (hx : (f.surf i).bufs[b]? = some x) (hst : x.st ≠ .closing)
  (hfill : Fabric.FillOn i ((f.openBuffer env i b).mapInto i b q) r) (hin : (r.surf i).InFill b) (hbes : ∀ k, k ≠ i → r.surf k = f.surf k)

theorem Fabric.FillOn.opened (hfill : Fabric.FillOn i ((f.openBuffer env i b).mapInto i b q) r) :
    r.copy = (f.decideCopy env i b).copy ∧ r.events = (f.decideCopy env i b).events ∧
      (r.surf i).history = ((f.decideCopy env i b).surf i).history ∧
      (r.surf i).deferred = ((f.decideCopy env i b).surf i).deferred ∧ (r.surf i).desc = (f.surf i).desc := by
  have hsurf := hfill.surf.rest
  rw [Fabric.surf_mapInto, Fabric.surf_openBuffer] at hsurf
  refine ⟨hfill.copy, hfill.events, ?_, ?_, ?_⟩
  · rw [hsurf]
    rfl
  · rw [hsurf]
    rfl
  · rw [hsurf, (f.surf_decideCopy env i b).1]
    rfl

theorem Fabric.FillOn.openedBuf (hfill : Fabric.FillOn i ((f.openBuffer env i b).mapInto i b q) r) {k : Nat} {y : BufRec}
    (hy : ((f.openBuffer env i b).surf i).bufs[k]? = some y) : ∃ n, (r.surf i).bufs[k]? = some { y with merges := y.merges + n } :=
  hfill.surf.buf (by rw [Fabric.surf_mapInto]; exact hy)

include hx hst hfill hbes in
/-- An open makes no job startable. -/
theorem Fabric.startable_of_opened (j : CopyJob) (hj : f.startable j = false) : r.startable j = false := by
  unfold Fabric.startable at *
  by_cases hi : j.surface = i
  · rw [hi, Surface.st_buf] at hj ⊢
    by_cases hk : j.source = b
    · rw [hk, Surface.states_getElem?, hx] at hj
      exact absurd (decide_eq_false_iff_not.mp hj) (not_not_intro hst)
    · rw [hfill.surf.states, Fabric.surf_mapInto]
      change decide ((((f.openBuffer env i b).surf i).states[j.source]?).getD .free ≠ .closing) = false
      rw [f.openBuffer_states env i hk]
      exact hj
  · rw [hbes j.surface hi]
    exact hj

include hrest hx hst hfill hbes in
/-- An engine at rest can select none of the jobs it had. -/
theorem Fabric.idle_of_opened (hc : f.copy.current = none) : ∀ j ∈ f.copy.queue, (r.startable j && j.lowestPending.isSome) = false := by
  intro j hj
  unfold Fabric.engineRests at hrest
  rw [hc] at hrest
  have h := List.all_eq_true.mp hrest j hj
  rw [Bool.not_eq_true', Bool.and_eq_false_iff] at h
  rw [Bool.and_eq_false_iff]
  exact h.imp_left (Fabric.startable_of_opened hx hst hfill hbes j)

include hrest hx hst hfill hbes in
/-- With its queue as it was, the engine rests. -/
theorem Fabric.engineRests_of_opened (hcopy : r.copy = f.copy) : r.engineRests = true := by
  have hidle := Fabric.idle_of_opened hrest hx hst hfill hbes
  unfold Fabric.engineRests at *
  rw [hcopy]
  cases hc : f.copy.current with
  | some c =>
    rw [hc] at hrest
    exact hrest
  | none => exact List.all_eq_true.mpr fun j hj => by rw [hidle hc j hj]; rfl

include hs hrest hx hst hfill hin hbes in
/-- R133 to R136, R138, R139, R141, R142. -/
theorem State.copyDecided (hnow : env.now = s.timebase) (ht : t.fab = Fabric.runEngine 5 r) : s.CopyDecided t i b f.events := by
  have hts := State.surf_of_engine ht i
  have hevents : t.fab.events = r.events := by rw [ht, (Fabric.sameButJobs_runEngine 5 r).rest]
  have hhist : (t.surf i).history = (r.surf i).history := by rw [hts]
  obtain ⟨hrc, hre, hrh, hrd, hrdesc⟩ := Fabric.FillOn.opened hfill
  -- the engine has nothing to do
  have still : r.copy = f.copy → t.fab = r := fun h => by
    rw [ht, Fabric.runEngine_of_rests r (Fabric.engineRests_of_opened hrest hx hst hfill hbes h)]
  have stillSurf : r.copy = f.copy → t.surf i = r.surf i := fun h => congrArg (fun g => Fabric.surf g i) (still h)
  have hset := hs.copySet b
  unfold State.CopyDecided
  dsimp only
  rcases f.decideCopy_cases env i b with ⟨hnil, hd⟩ | ⟨hne, hno, hd⟩ | ⟨hne, k, y, hy, hyc, hmin, hd⟩
  · rw [hd] at hrc hre hrh hrd
    have hcopies : ∀ x, ¬ (s.surf i).Copies b x := fun x hx => by
      have := Surface.mem_copySet.mpr hx
      rw [← hset, hnil] at this
      cases this
    refine ⟨fun _ => ⟨⟨?_, ?_⟩, ?_, ?_⟩, fun ⟨x, hx⟩ => absurd hx (hcopies x), fun _ _ ⟨x, hx⟩ => absurd hx (hcopies x)⟩
    · rw [still hrc, hrc, hs.copy]
    · rw [stillSurf hrc, hrd, hs.deferred]
    · rw [hhist, hrh, hs.history]
    · rw [hevents, hre]
  · have hcopies : ∃ x, (s.surf i).Copies b x := Surface.copySet_ne_nil.mp (hset ▸ hne)
    rw [hs.bufs, hs.counter] at hno
    have hsurf : (f.decideCopy env i b).surf i = { f.surf i with history := [] } := by
      rw [hd, Fabric.surf_logSurf, Fabric.surf_modSurf_same]
    have hcopied : r.copy = f.copy := by rw [hrc, hd]; rfl
    refine ⟨fun h => absurd hcopies (not_exists.mpr h), fun _ _ => ⟨⟨?_, ?_⟩, ?_, ?_⟩, fun k y _ ⟨hk, hkc⟩ => absurd hkc (hno k y hk)⟩
    · rw [still hcopied, hcopied, hs.copy]
    · rw [stillSurf hcopied, hrd, hsurf]
      exact hs.deferred
    · rw [hhist, hrh, hsurf]
    · rw [hevents, hre, hd, Fabric.events_logSurf, Fabric.surf_modSurf_same, hnow, ← hs.desc, ← hs.counter]
      rfl
  · have hcopies : ∃ x, (s.surf i).Copies b x := Surface.copySet_ne_nil.mp (hset ▸ hne)
    rw [hs.counter] at hyc
    rw [hs.bufs, hs.counter] at hmin
    rw [hs.bufs] at hy
    refine ⟨fun h => absurd hcopies (not_exists.mpr h), fun _ hno => absurd hyc (fun h => hno k y ⟨hy, h⟩), ?_⟩
    rintro k' y' - ⟨hy', hyc'⟩ hmin'
    obtain rfl : k' = k := by
      rcases Nat.lt_trichotomy k' k with hlt | heq | hlt
      · exact absurd hyc' (hmin k' y' hlt hy')
      · exact heq
      · exact absurd ⟨hy, hyc⟩ (hmin' k y hlt)
    obtain rfl := Option.some.inj (hy.symm.trans hy')
    have hkb : k' ≠ b := by
      rintro rfl
      obtain ⟨z, hz⟩ := hcopies
      exact hz.content_ne (by rw [Surface.buf_of_some hy, hyc])
    have hyf : (f.surf i).bufs[k']? = some y := by rw [hs.bufs]; exact hy
    have hheld : ((f.modBuf i k' (fun r => { r with hold := true })).surf i) =
        (f.surf i).modBuf k' (fun r => { r with hold := true }) := f.surf_modBuf_same i k' _
    -- the source, held
    have hsource : ((f.decideCopy env i b).surf i).bufs[k']? = some { y with hold := true } ∧
        ((f.decideCopy env i b).surf i).history = (f.surf i).history ∧ (f.decideCopy env i b).events = f.events := by
      rw [hd]
      have hbuf : ((f.surf i).modBuf k' (fun r => { r with hold := true })).bufs[k']? = some { y with hold := true } := by
        rw [Surface.bufs_modBuf, if_pos rfl, hyf]
        rfl
      rcases (f.modBuf i k' (fun r => { r with hold := true })).addJob_cases (newJob i k' b ((f.surf i).copySet b)) with
        ⟨-, ha⟩ | ⟨-, ha⟩
      · rw [ha]
        change ((Fabric.modSurf _ i _).surf i).bufs[k']? = _ ∧ ((Fabric.modSurf _ i _).surf i).history = _ ∧ _
        rw [Fabric.surf_modSurf_same, hheld]
        exact ⟨hbuf, rfl, rfl⟩
      · rw [ha]
        change ((f.modBuf i k' _).surf i).bufs[k']? = _ ∧ ((f.modBuf i k' _).surf i).history = _ ∧ _
        rw [hheld]
        exact ⟨hbuf, rfl, rfl⟩
    obtain ⟨hsrcBuf, hsrcHist, hsrcEvents⟩ := hsource
    have hopenBuf : ((f.openBuffer env i b).surf i).bufs[k']? = some { y with hold := true } := by
      rw [Fabric.bufs_openBuffer, if_neg (Ne.symm hkb)]
      exact hsrcBuf
    obtain ⟨n, hn⟩ := hfill.openedBuf hopenBuf
    have htn : (t.surf i).bufs[k']? = _ := (congrArg (fun su : Surface => su.bufs[k']?) hts).trans hn
    refine ⟨hkb, ?_, ?_, ⟨_, htn, rfl, rfl, rfl⟩, ?_⟩
    · rw [hhist, hrh, hsrcHist, hs.history]
    · rw [hevents, hre, hsrcEvents]
    rw [hset] at hd
    have hmem : ∀ {stripes : List StripeRec}, stripes.map (fun q => q.stripe) = (s.surf i).copySet b →
        ∀ x, (∃ q ∈ stripes, q.stripe = x) ↔ (s.surf i).Copies b x := fun h x => by
      rw [← Surface.mem_copySet, ← h, List.mem_map]
    have hrise := (s.surf i).copySet_rising b
    have hnew := newJob_stripes i k' b ((s.surf i).copySet b)
    have hnone : ∀ q ∈ (newJob i k' b ((s.surf i).copySet b)).stripes, q.st ≠ .done ∧ q.fault = false := fun q hq => by
      obtain ⟨h, -, hf⟩ := newJob_untaken q hq
      rw [h]
      exact ⟨fun h => (by cases h), hf⟩
    rcases (f.modBuf i k' (fun r => { r with hold := true })).addJob_cases (newJob i k' b ((s.surf i).copySet b)) with
      ⟨hany, ha⟩ | ⟨hall, ha⟩
    · have hcopied : r.copy = f.copy := by rw [hrc, hd, ha]; rfl
      refine ⟨newJob i k' b ((s.surf i).copySet b), rfl, rfl, rfl, by rw [hnew]; exact hrise, hmem hnew, hnone, ?_⟩
      rw [if_pos (by rw [← hs.copy]; exact hany)]
      refine ⟨by rw [still hcopied, hcopied, hs.copy], ?_, fun q hq => ⟨(newJob_untaken q hq).1, (newJob_untaken q hq).2.1⟩⟩
      rw [stillSurf hcopied, hrd, hd, ha]
      change ((Fabric.modSurf _ i _).surf i).deferred = _
      rw [Fabric.surf_modSurf_same, hheld]
      change (f.surf i).deferred ++ _ = _
      rw [hs.deferred]
    · have hcopied : r.copy = { f.copy with queue := f.copy.queue ++ [newJob i k' b ((s.surf i).copySet b)] } := by rw [hrc, hd, ha]; rfl
      have hall : ∀ q ∈ f.copy.queue, q.surface ≠ i := hall
      have hnoQueued : ¬ ∃ q ∈ s.fab.copy.queue, q.surface = i := by
        rw [← hs.copy]
        rintro ⟨q, hq, hqi⟩
        exact hall q hq hqi
      have hstart : r.startable (newJob i k' b ((s.surf i).copySet b)) = decide (y.st ≠ .closing) := by
        change decide (((r.surf i).buf k').st ≠ .closing) = _
        rw [Surface.buf_of_some hn]
      have hidle := Fabric.idle_of_opened hrest hx hst hfill hbes
      by_cases htake : s.fab.copy.current = none ∧ y.st ≠ .closing
      · have hcur : f.copy.current = none := by rw [hs.copy]; exact htake.1
        obtain ⟨x0, hx0⟩ : ∃ x0, ((r.surf i).awaitedOf ((s.surf i).copySet b)).or ((s.surf i).copySet b).head? = some x0 := by
          cases (r.surf i).awaitedOf ((s.surf i).copySet b) with
          | some x0 => exact ⟨x0, rfl⟩
          | none =>
            rw [hset] at hne
            obtain ⟨x0, xs, hxs⟩ := List.exists_cons_of_ne_nil hne
            exact ⟨x0, by rw [hxs]; rfl⟩
        have hhead : ∀ m, (r.surf i).head = .mapped m → m.buf = b := fun m hm => by
          have := hin.head
          rwa [Surface.HeadIn, hm] at this
        obtain ⟨hworks, hslots⟩ := Fabric.runEngine_newJob (by rw [hcopied]) (fun q hq => ⟨hall q hq, hidle hcur q hq⟩) hhead
          (by rw [hcopied]; exact hcur) (by rw [hstart]; exact decide_eq_true htake.2) hx0
        rw [← ht] at hworks hslots
        obtain ⟨j, hj, hsurf, hsrc, htgt, hstripes, hjst, hcopying⟩ := hworks.job
        refine ⟨j, hsurf, hsrc, htgt, by rw [hstripes]; exact hrise, hmem hstripes, hjst, ?_⟩
        rw [if_neg hnoQueued, if_pos htake]
        refine ⟨by rw [hj, hs.copy], fun x hxw => ?_⟩
        obtain rfl : x = x0 := by
          have hany : ∀ x, j.stripes.any (fun q => q.stripe == x) = decide (x ∈ (s.surf i).copySet b) := fun x => by
            rw [← hstripes]
            exact Bool.eq_iff_iff.mpr (by simp)
          have hthead : (t.surf i).head = (r.surf i).head := by rw [hts]
          rw [hthead, ← List.head?_map, hstripes] at hxw
          simp only [hany] at hxw
          exact Option.some.inj (hxw.symm.trans hx0)
        refine ⟨hcopying, fun hlen => ?_⟩
        have hbase : ∀ {n : Nat} {z : BufRec}, (f.surf i).bufs[n]? = some z → ((r.surf i).buf n).base = ((s.surf i).buf n).base := by
          intro n z hz
          obtain ⟨z', hz', hbz⟩ := f.openBuffer_base env i b hz
          obtain ⟨_, hz''⟩ := hfill.openedBuf hz'
          rw [Surface.buf_of_some hz'', Surface.buf_of_some (hs.bufs ▸ hz)]
          exact hbz
        rw [hcopied] at hslots
        dsimp only at hslots
        rw [← hs.copy, hslots (by rw [hs.copy]; exact hlen), hrdesc, hs.desc]
        exact congrArg some (Surface.chunkAt_congr (hrdesc.trans hs.desc) (hbase hyf) (hbase hx))
      · have hrests : r.engineRests = true := by
          unfold Fabric.engineRests at hrest ⊢
          rw [hcopied]
          dsimp only
          cases hcur : f.copy.current with
          | some c =>
            rw [hcur] at hrest
            exact hrest
          | none =>
            have hclosing : y.st = .closing := Decidable.not_not.mp fun h => htake ⟨by rw [← hs.copy]; exact hcur, h⟩
            refine List.all_eq_true.mpr fun j hj => ?_
            rcases List.mem_append.mp hj with hj | hj
            · rw [hidle hcur j hj]
              rfl
            · rw [List.mem_singleton.mp hj, hstart, hclosing]
              rfl
        have hstill : t.fab = r := by rw [ht, Fabric.runEngine_of_rests r hrests]
        refine ⟨newJob i k' b ((s.surf i).copySet b), rfl, rfl, rfl, by rw [hnew]; exact hrise, hmem hnew, hnone, ?_⟩
        rw [if_neg hnoQueued, if_neg htake]
        exact ⟨by rw [hstill, hcopied, hs.copy], fun q hq => ⟨(newJob_untaken q hq).1, (newJob_untaken q hq).2.1⟩⟩

end

end Sys2Proof.Machine

/-! # An event after which a lane head asks for a buffer -/

namespace Sys2Proof.Machine

set_option Elab.async false

section
variable {s t : State} {f : Fabric} {env : Env} {i : Fin 8}
  (ht : t.fab = Fabric.runEngine 5 (Fabric.settleSurface env f i)) (hs : s.OpensFrom f i) (hrest : f.engineRests = true)
  (hnow : env.now = s.timebase) (hl : (f.surf i).life = .attached) (hq : (f.surf i).lane ≠ []) (hf : (f.surf i).filling = none)
  (hp : (f.surf i).closePending = false) (hh : (f.surf i).head = .fresh ∨ (f.surf i).head = .waiting)
include ht hs hrest hnow hl hq hf hp hh

/-- The FREE buffer that R90 names is opened, and the open decides carry-forward. -/
theorem State.copyDecided_of_free {c : Nat} (hc : (f.surf i).chooseFree = some c) : s.CopyDecided t i c f.events := by
  obtain ⟨q, qs, hqs⟩ := List.exists_cons_of_ne_nil hq
  obtain ⟨hg, hin⟩ := Fabric.settleSurface_finds env hl hqs hf hp hh (.free hc) fun _ hn => absurd (hc.symm.trans hn) (by simp)
  obtain ⟨x, hx, hst⟩ := Surface.chooseFree_some hc
  exact State.copyDecided hs hrest hx (by rw [hst]; exact fun h => (by cases h)) hg hin (f.beside_settleSurface env i).surf hnow ht

/-- A READY buffer is taken for the head, and the open decides carry-forward. -/
theorem State.copyDecided_of_reclaimed {c : Nat} {x : BufRec} (hfresh : (f.surf i).head = .fresh) (hn : (f.surf i).chooseFree = none)
    (hr : (f.surf i).desc.reclaim = true) (hc : (f.surf i).reclaimable = some c) (hx : (f.surf i).bufs[c]? = some x)
    (hst : x.st ≠ .closing) : s.CopyDecided t i c (f.dropReady env i c).events := by
  obtain ⟨q, qs, hqs⟩ := List.exists_cons_of_ne_nil hq
  obtain ⟨hg, hin⟩ := Fabric.settleSurface_finds env hl hqs hf hp hh (.reclaimed hfresh hn hr hc)
    fun _ _ _ _ => (List.getElem?_eq_some_iff.mp hx).1
  have hsurf := f.surf_dropReady env i c
  have hother : ∀ k, k ≠ i → (f.dropReady env i c).surf k = f.surf k := fun k hk =>
    ((f.beside_modSurf i _).trans (Fabric.beside_logSurf _ i env _ i _ _ _)).surf k hk
  refine State.copyDecided (s := s) (f := f.dropReady env i c) ⟨hs.copy, ?_, ?_, ?_, ?_, ?_⟩ ?_ (x := x) ?_ hst hg hin
    (fun k hk => ((f.beside_settleSurface env i).surf k hk).trans (hother k hk).symm) hnow ht
  · rw [hsurf]
    exact hs.bufs
  · rw [hsurf]
    exact hs.history
  · rw [hsurf]
    exact hs.desc
  · rw [hsurf]
    exact hs.counter
  · rw [hsurf]
    exact hs.deferred
  · refine (Fabric.engineRests_congr (f := f) (g := f.dropReady env i c) rfl fun j _ => ?_).trans hrest
    unfold Fabric.startable
    by_cases hk : j.surface = i
    · rw [hk, hsurf]
      rfl
    · rw [hother _ hk]
  · rw [hsurf]
    exact hx

end

theorem Fabric.events_dropReady (f : Fabric) (env : Env) (i : Fin 8) {c : Nat} {x : BufRec} (hx : (f.surf i).bufs[c]? = some x) :
    (f.dropReady env i c).events = appendEvent f.events
      { kind := .frameDropped, surface := BitVec.ofNat 8 i.val, pipe := (f.surf i).desc.pipe, buffer := BitVec.ofNat 8 c
        seq := BitVec.ofNat 32 x.content, detail := 0, stamp := env.now } := by
  unfold Fabric.dropReady
  rw [Fabric.events_logSurf, Fabric.surf_modSurf_same, Surface.buf_of_some hx]
  rfl

end Sys2Proof.Machine

/-! # SET_POLICY (R38, R93) -/

namespace Sys2Proof.Machine

set_option Elab.async false

theorem Fabric.presentMerge_of_rests {f : Fabric} {i : Fin 8} (h : f.surfaceRests i = true) : f.presentMerge i = f := by
  have hs := f.settleSurface_of_rests ⟨0, true, Vector.replicate 4 ⟨0, false, 0⟩⟩ i h
  rw [Fabric.surfaceRests, Bool.and_eq_true] at h
  unfold Fabric.settleSurface at hs
  rwa [Fabric.runLane_of_rests f _ i (by simpa [or_assoc] using h.1)] at hs

/-- A part at rest of which an event has changed surface `i` beside the others: what it does at once. -/
theorem State.finish_beside {s : State} {g : Fabric} {i : Fin 8} (hr : s.AtRest) (h : Fabric.Beside i s.fab g) :
    ∃ t : State, ({ s with fab := g } : State).finish = t ∧ t = { s with fab := t.fab } ∧
      t.fab = Fabric.runEngine 5 (Fabric.settleSurface s.env g i) := by
  have he : ({ s with fab := g } : State).env = s.env := rfl
  have hfin := h.finish s.env hr
  have hX := State.finish_eq { s with fab := g }
  dsimp only at hX
  rw [he] at hX
  generalize g.finish s.env = F at hfin hX
  exact ⟨_, hX, rfl, hfin⟩

/-- The surface after SET_POLICY with values in their ranges, its head aside (R38). -/
def Surface.policied (su : Surface) (params : List Byte) : Surface :=
  { su with
    desc := { su.desc with present := byteAt params 1, minShow := byteAt params 2, flags := byteAt params 3,
                           holdLimit := byteAt params 4 },
    history := if (byteAt params 3).getLsbD 2 = su.desc.flags.getLsbD 2 then su.history else [] }

section
variable {s : State} {i : Fin 8} {params : List Byte} (ht : s.Takes 0x24 params) (hd : s.device = .running)
  (hn : params.length = 5) (hp : (byteAt params 0).toNat = i.val) (hl : (s.surf i).life = .attached)
include ht hd hn hp hl

theorem exec_setPolicy_bad (h : policyInRange (byteAt params 1) (byteAt params 2) (byteAt params 3) (byteAt params 4) ≠ true) :
    exec (.setPolicy params) s = .next (s.replied .badValue []) := by
  rw [show exec (.setPolicy params) s = _ from exec_row_running (c := .setPolicy) ht (by simp [Command.lengthFits, hn]) hd]
  simp only [Command.apply, applySetPolicy, State.onAttached_of_eq s hp hl]
  rw [if_neg h, State.answer_failed]

theorem exec_setPolicy (h : policyInRange (byteAt params 1) (byteAt params 2) (byteAt params 3) (byteAt params 4) = true) :
    exec (.setPolicy params) s = .next ((s.modSurf i (fun _ => { (s.surf i).policied params with
      head := if (s.surf i).head = .waiting ∧ (byteAt params 3).getLsbD 0 = true then .fresh else (s.surf i).head })).finish.replied
        .ok []) := by
  rw [show exec (.setPolicy params) s = _ from exec_row_running (c := .setPolicy) ht (by simp [Command.lengthFits, hn]) hd]
  simp only [Command.apply, applySetPolicy, State.onAttached_of_eq s hp hl]
  rw [if_pos h, State.answer_done]
  have hm : s.modSurf i (fun su => su.setPolicy ((s.surf i).desc.withPolicy (byteAt params 1) (byteAt params 2) (byteAt params 3)
      (byteAt params 4))) = s.modSurf i (fun _ => { (s.surf i).policied params with
      head := if (s.surf i).head = .waiting ∧ (byteAt params 3).getLsbD 0 = true then .fresh else (s.surf i).head }) :=
    congrArg (fun f : Fabric => ({ s with fab := f } : State)) (Fabric.modSurf_congr _ _ rfl)
  rw [hm]

end

theorem policyInRange_iff {a b c d : Byte} : policyInRange a b c d = true ↔
    a.toNat ≤ 1 ∧ 1 ≤ b.toNat ∧ b.toNat ≤ 4 ∧ c.toNat < 8 ∧ d.toNat ≤ 15 := by
  simp [policyInRange, and_assoc]

/-- A policy decides nothing about rest. -/
theorem Surface.restsAs_policied (su : Surface) (params : List Byte) : su.RestsAs (su.policied params) := {}

/-- Settles O32. -/
theorem setPolicyChanges : Obligations.SetPolicyChanges := by
  intro s i params ht hd hn hp hl hr su inRange u
  have hu : u = su.policied params := rfl
  have hrange : inRange ↔ _ := policyInRange_iff.symm
  have hur : (s.modSurf i (fun _ => u)).AtRest := Fabric.rests_modSurf_restsAs hr ((s.surf i).restsAs_policied params)
  refine ⟨fun h => exec_setPolicy_bad ht hd hn hp hl (fun e => h (hrange.mpr e)), fun h hw => ?_, ?_⟩
  · rw [exec_setPolicy ht hd hn hp hl (hrange.mp h)]
    by_cases hask : (s.surf i).head = .waiting ∧ (byteAt params 3).getLsbD 0 = true
    · obtain ⟨hsafe, hlane, hhold⟩ := (hw hask.1).resolve_left (by rw [hask.2]; decide)
      rw [if_pos hask]
      refine congrArg (fun f : Fabric => (Host.Outcome.next (({ s with fab := f } : State).replied .ok []) : Host.Outcome State Fault Refusal)) ?_
      have hg : (s.fab.modSurf i (fun _ => { u with head := .fresh })).surf i = { u with head := .fresh } := s.fab.surf_modSurf_same i _
      obtain ⟨q, qs, hqs⟩ := List.exists_cons_of_ne_nil hlane
      have hback : (s.fab.modSurf i (fun _ => { u with head := .fresh })).modSurf i (fun su => { su with head := .waiting }) =
          s.fab.modSurf i (fun _ => u) := by
        rw [Fabric.modSurf_modSurf]
        refine Fabric.modSurf_congr _ _ ?_
        rw [← hask.1]
      have hur' : (s.fab.modSurf i (fun _ => u)).rests = true := hur
      change (s.fab.modSurf i (fun _ => { u with head := .fresh })).finish s.env = _
      rw [Fabric.Beside.finish (s.fab.beside_modSurf i _) s.env hr, Fabric.settleSurface_waits (q := q) (qs := qs), hback,
        Fabric.presentMerge_of_rests ((Fabric.rests_iff.mp hur').2.1 i), Fabric.runEngine_of_rests _ (Fabric.rests_iff.mp hur').2.2.2]
      · rw [hg]
        exact hl
      · rw [hg]
        exact hqs
      · rw [hg]
        exact (show su.filling = none from Surface.filling_of_waiting hsafe hask.1)
      · rw [hg]
        exact .inl rfl
      · rw [hg]
        exact Surface.chooseFree_isNone_congr (su := su) rfl
          (Fabric.chooseFree_of_waiting ((Fabric.rests_iff.mp hr).2.1 i) hlane hl hask.1)
      · rw [hg]
        exact fun _ _ => Surface.reclaimable_eq_none hhold
    · rw [if_neg hask]
      exact congrArg (fun t : State => (Host.Outcome.next (t.replied .ok []) : Host.Outcome State Fault Refusal)) (State.finish_of_rest _ hur)
  · intro pre b post x h hw hlane hpend hsafe hlists hflag hpres hpre hx hhold
    have hg : (s.fab.modSurf i (fun _ => { u with head := .fresh })).surf i = { u with head := .fresh } := s.fab.surf_modSurf_same i _
    obtain ⟨X, hX, hXs, hfin⟩ := State.finish_beside hr (s.fab.beside_modSurf i (fun _ => { u with head := .fresh }))
    have hlife : ((s.fab.modSurf i (fun _ => { u with head := .fresh })).surf i).life = .attached := by rw [hg]; exact hl
    have hq : ((s.fab.modSurf i (fun _ => { u with head := .fresh })).surf i).lane ≠ [] := by rw [hg]; exact hlane
    have hfill : ((s.fab.modSurf i (fun _ => { u with head := .fresh })).surf i).filling = none := by
      rw [hg]
      exact (show su.filling = none from Surface.filling_of_waiting hsafe hw)
    have hpc : ((s.fab.modSurf i (fun _ => { u with head := .fresh })).surf i).closePending = false := by rw [hg]; exact hpend
    have hh : ((s.fab.modSurf i (fun _ => { u with head := .fresh })).surf i).head = .fresh := by rw [hg]
    have hnone : su.chooseFree = none := Fabric.chooseFree_of_waiting ((Fabric.rests_iff.mp hr).2.1 i) hlane hl hw
    have hn' : ((s.fab.modSurf i (fun _ => { u with head := .fresh })).surf i).chooseFree = none := by
      rw [hg]
      exact Surface.chooseFree_isNone_congr (su := su) rfl hnone
    have hreclaim : ((s.fab.modSurf i (fun _ => { u with head := .fresh })).surf i).reclaimable = some b := by
      rw [hg]
      exact Surface.reclaimable_of_split hpres hpre ((congrArg BufRec.hold (Surface.buf_of_some hx)).trans hhold)
    have hr' : ((s.fab.modSurf i (fun _ => { u with head := .fresh })).surf i).desc.reclaim = true := by
      rw [hg]
      exact hflag
    have hx' : ((s.fab.modSurf i (fun _ => { u with head := .fresh })).surf i).bufs[b]? = some x := by rw [hg]; exact hx
    have hready : x.st = .ready := by
      have hst := (listsSafe_iff.mp hlists).2.2.1 b (by rw [hpres]; simp)
      rw [Surface.states_getElem?, show su.bufs[b]? = some x from hx] at hst
      exact Option.some.inj hst
    have hdecided := State.headDecided (u := u) (asks := true) (t := X)
      hfin (by rw [hg]; exact { bufs := fun k x hx => ⟨x, hx, rfl, rfl, .inl rfl⟩ }) hlife hq hfill hpc hh
    obtain ⟨hopen, hleft⟩ := hdecided.2.1 pre b post x ((Surface.chooseFree_none (su := su)).mp hnone) ⟨rfl, hflag⟩ hpres hpre hx hhold
    have hdesc := congrArg Surface.desc (State.surf_of_finds (t := X) hfin hlife hq
      hfill hpc (.inl hh) (.reclaimed hh hn' hr' hreclaim) fun _ _ _ _ => (List.getElem?_eq_some_iff.mp hx').1)
    rw [hg] at hdesc
    have hcopy := State.copyDecided_of_reclaimed (s := s.modSurf i (fun _ => u))
      (t := X) hfin ?_ ?_ rfl hlife hq hfill hpc (.inl hh) hh hn' hr' hreclaim hx'
      (by rw [hready]; exact fun h => (by cases h))
    · rw [Fabric.events_dropReady _ _ _ hx', hg] at hcopy
      refine ⟨X.replied .ok [], ?_, ?_, hdecided, hopen, hleft, hdesc, hcopy, (congrArg State.tags hXs :), (congrArg State.issued hXs :)⟩
      · rw [exec_setPolicy ht hd hn hp hl (hrange.mp h), if_pos ⟨hw, hflag⟩]
        exact congrArg (fun t : State => (Host.Outcome.next (t.replied .ok []) : Host.Outcome State Fault Refusal)) hX
      · exact (congrArg (fun t : State => (t.replied .ok []).link) hXs :)
    · have hsu : (s.modSurf i (fun _ => u)).surf i = u := s.surf_modSurf_same i _
      refine ⟨rfl, ?_, ?_, ?_, ?_, ?_⟩ <;> rw [hg, hsu]
    · refine (Fabric.engineRests_congr (f := s.fab) (g := s.fab.modSurf i (fun _ => { u with head := .fresh })) rfl fun j _ => ?_).trans (Fabric.rests_iff.mp hr).2.2.2
      unfold Fabric.startable
      by_cases hk : j.surface = i
      · rw [hk, hg]
        rfl
      · rw [s.fab.surf_modSurf_other _ (Ne.symm hk)]

end Sys2Proof.Machine

/-! # DISCARD READY (R103 to R105, R93) -/

namespace Sys2Proof.Machine

set_option Elab.async false

/-! ## Buffers that leave use -/

theorem BufRec.leaveUse_eq (x : BufRec) : x.leaveUse = { x with st := x.unused } := by
  unfold BufRec.leaveUse BufRec.unused
  simp only [Bool.and_eq_true, Bool.not_eq_true']

theorem BufRec.release_eq (x : BufRec) : x.release = x.tested := by
  unfold BufRec.release BufRec.tested BufRec.unused
  by_cases hd : x.st = .draining
  · by_cases hz : x.countsZero = true ∧ x.hold = false
    · rw [if_pos ⟨hd, hz⟩, if_pos hd, if_pos hz]
    · rw [if_neg fun h => hz h.2, if_pos hd, if_neg hz, ← hd]
  · rw [if_neg fun h => hd h.1, if_neg hd]

theorem BufRec.unused_ne (x : BufRec) : x.unused = .free ∨ x.unused = .draining := by
  unfold BufRec.unused
  split
  · exact .inl rfl
  · exact .inr rfl

/-- The buffers of a list leave use, each once or more. -/
theorem Surface.foldl_leaveUse_eq (l : List Nat) (su : Surface) : l.foldl (fun s b => s.modBuf b BufRec.leaveUse) su =
    { su with bufs := su.bufs.mapIdx (fun k x => if k ∈ l then { x with st := x.unused } else x) } := by
  induction l generalizing su with
  | nil =>
    have : su.bufs.mapIdx (fun k x => if k ∈ ([] : List Nat) then { x with st := x.unused } else x) = su.bufs :=
      List.ext_getElem (by simp) fun k _ _ => by simp
    rw [this]
    rfl
  | cons b l ih =>
    rw [List.foldl_cons, ih]
    refine congrArg (fun bs => ({ su with bufs := bs } : Surface)) (List.ext_getElem? fun k => ?_)
    rw [List.getElem?_mapIdx, List.getElem?_mapIdx, Surface.bufs_modBuf]
    cases su.bufs[k]? with
    | none =>
      by_cases hk : b = k
      · rw [if_pos hk]
        rfl
      · rw [if_neg hk]
        rfl
    | some x =>
      by_cases hk : b = k
      · subst hk
        rw [if_pos rfl, Option.map_some, Option.map_some, Option.map_some, BufRec.leaveUse_eq, if_pos List.mem_cons_self]
        split <;> rfl
      · rw [if_neg hk, Option.map_some, Option.map_some]
        have : k ∈ b :: l ↔ k ∈ l := by simp [Ne.symm hk]
        simp only [this]

/-- The surface after DISCARD READY (R104). -/
theorem Surface.discardReady_eq (su : Surface) : su.discardReady = { su with
    bufs := su.bufs.mapIdx (fun k x => if k ∈ su.present then { x with st := x.unused } else x), present := [] } := by
  unfold Surface.discardReady
  rw [Surface.foldl_leaveUse_eq]

/-- No buffer becomes CLOSING or stops being so when READY ones leave use. -/
theorem Surface.discardReady_closing {su : Surface} (h : ListsSafe su) (k : Nat) :
    (su.discardReady.buf k).st = .closing ↔ (su.buf k).st = .closing := by
  rw [Surface.discardReady_eq]
  unfold Surface.buf
  rw [List.getD_eq_getElem?_getD, List.getD_eq_getElem?_getD, List.getElem?_mapIdx]
  cases hk : su.bufs[k]? with
  | none => rfl
  | some x =>
    rw [Option.map_some, Option.getD_some, Option.getD_some]
    split
    · next hm =>
      have hst := (listsSafe_iff.mp h).2.2.1 k hm
      rw [Surface.states_getElem?, hk] at hst
      have hready : x.st = .ready := Option.some.inj hst
      rcases x.unused_ne with h | h
      · simp [h, hready]
      · simp [h, hready]
    · rfl

/-! ## The rows of DISCARD -/

theorem exec_discardFilling {s : State} {p choice : Byte} (ht : s.Takes 0x31 [p, choice]) (hd : s.device = .running) :
    exec (.discardFilling [p, choice]) s = .next (State.answer (applyDiscard [p, choice] s)) := by
  have hc : s.command .discard [p, choice] = _ := State.command_of_takes s (c := .discard) ht
  rw [runCommand_apply rfl hd] at hc
  exact congrArg Host.Outcome.next hc

theorem exec_discardReady {s : State} {p choice : Byte} (ht : s.Takes 0x31 [p, choice]) (hd : s.device = .running) :
    exec (.discardReady [p, choice]) s = .next (State.answer (applyDiscard [p, choice] s)) :=
  (exec_discardFilling ht hd : _)

section
variable {s : State} {i : Fin 8} {p : Byte} (hp : p.toNat = i.val) (hl : (s.surf i).life = .attached)
include hp hl

theorem applyDiscard_other {choice : Byte} (h : 1 < choice.toNat) : applyDiscard [p, choice] s = s.failed .badValue := by
  have h0 : byteAt [p, choice] 1 ≠ 0 := fun e => by rw [show choice = 0 from e] at h; cases h
  have h1 : byteAt [p, choice] 1 ≠ 1 := fun e => by rw [show choice = 1 from e] at h; exact absurd h (by decide)
  unfold applyDiscard
  rw [State.onAttached_of_eq s (show (byteAt [p, choice] 0).toNat = i.val from hp) hl, if_neg h0, if_neg h1]

theorem applyDiscard_ready : applyDiscard [p, 1] s = if (s.surf i).present = [] then s.failed .noFrame
    else (s.modSurf i Surface.discardReady).finish.okWith [BitVec.ofNat 8 (s.surf i).present.length] := by
  unfold applyDiscard
  rw [State.onAttached_of_eq s (show (byteAt [p, 1] 0).toNat = i.val from hp) hl]
  rfl

theorem applyDiscard_filling : applyDiscard [p, 0] s = match (s.surf i).filling with
    | some b => (s.onFabric (fun env f => f.discardFill env i b)).finish.done
    | none => s.failed .noFrame := by
  unfold applyDiscard
  rw [State.onAttached_of_eq s (show (byteAt [p, 0] 0).toNat = i.val from hp) hl]
  rfl

end

/-! ## A head that waits, decided again -/

section
variable {t : State} {f : Fabric} {env : Env} {i : Fin 8} {u v : Surface} {asks : Bool} (hv : f.surf i = v)
  (ht : t.fab = Fabric.runEngine 5 (Fabric.settleSurface env f i)) (hu : u.AsksAs v asks) (hl : v.life = .attached)
  (hq : v.lane ≠ []) (hf : v.filling = none) (hp : v.closePending = false)
  (hh : v.head = if asks = true then .fresh else .waiting)
include hv ht hu hl hq hf hp hh

theorem State.headDecided_of : t.HeadDecided i u asks := by
  subst hv
  exact State.headDecided ht hu hl hq hf hp hh

end

theorem Surface.copySet_of_off {su : Surface} (h : su.desc.carryForward = false) (b : Nat) : su.copySet b = [] := by
  unfold Surface.copySet
  rw [if_pos h]

theorem Fabric.decideCopy_of_off {f : Fabric} {i : Fin 8} (env : Env) (h : (f.surf i).desc.carryForward = false) (b : Nat) :
    f.decideCopy env i b = f := by
  unfold Fabric.decideCopy
  dsimp only
  rw [if_pos (Surface.copySet_of_off h b)]

section
variable {t : State} {f : Fabric} {env : Env} {i : Fin 8} {v : Surface} (hv : f.surf i = v)
  (ht : t.fab = Fabric.runEngine 5 (Fabric.settleSurface env f i)) (hl : v.life = .attached) (hq : v.lane ≠ [])
  (hf : v.filling = none) (hp : v.closePending = false) (hh : v.head = .waiting)
include hv ht hl hq hf hp hh

/-- The decision of a head that was waiting does not look at the present queue. -/
theorem State.present_of_waiting : (t.surf i).present = v.present := by
  subst hv
  obtain ⟨q, qs, hqs⟩ := List.exists_cons_of_ne_nil hq
  cases hc : (f.surf i).chooseFree with
  | some c =>
    rw [(State.opened_of_finds ht hl hq hf hp (.inr hh) (.free hc) fun h => absurd (hh.symm.trans h) nofun).2, hc]
    rfl
  | none =>
    have hs := State.surf_of_engine ht i
    rw [Fabric.settleSurface_waits env hl hqs hf (.inr hh) hc (fun h => absurd (hh.symm.trans h) nofun),
      ((f.modSurf i _).presentMerge_spec i).2.2.2.2.1, Fabric.surf_modSurf_same] at hs
    rw [hs]

/-- Without carry-forward the decision of a head that was waiting leaves the history and the records. -/
theorem State.quiet_of_waiting (hc : v.desc.carryForward = false) :
    (t.surf i).history = v.history ∧ t.fab.events = f.events := by
  subst hv
  obtain ⟨q, qs, hqs⟩ := List.exists_cons_of_ne_nil hq
  have hs := State.surf_of_engine ht i
  have he : t.fab.events = (Fabric.settleSurface env f i).events := by rw [ht, (Fabric.sameButJobs_runEngine 5 _).rest]
  cases hcf : (f.surf i).chooseFree with
  | some c =>
    obtain ⟨hg, -⟩ := Fabric.settleSurface_finds env hl hqs hf hp (.inr hh) (.free hcf) fun h => absurd (hh.symm.trans h) nofun
    obtain ⟨-, hge, hgh, -, -⟩ := Fabric.FillOn.opened hg
    rw [Fabric.decideCopy_of_off env hc] at hge hgh
    rw [he, hge, hs]
    exact ⟨hgh, rfl⟩
  | none =>
    obtain ⟨-, hpe, -, -, hps, -⟩ := (f.modSurf i (fun su => { su with head := .waiting })).presentMerge_spec i
    rw [Fabric.settleSurface_waits env hl hqs hf (.inr hh) hcf (fun h => absurd (hh.symm.trans h) nofun)] at hs he
    rw [he, hpe, hs, hps, Fabric.surf_modSurf_same]
    exact ⟨rfl, rfl⟩

end

/-- Settles O36. -/
theorem discardReadyEmpties : Obligations.DiscardReadyEmpties := by
  intro s i p hd hp hl
  refine ⟨fun ht hn => ?_, fun ht hn => ?_, fun choice ht hc => ?_, fun ht hr hlists hlane hpres => ?_, ?_⟩
  · rw [exec_discardReady ht hd, applyDiscard_ready hp hl, if_pos hn, State.answer_failed]
  · rw [exec_discardFilling ht hd, applyDiscard_filling hp hl, Surface.filling_none.mpr hn]
    rfl
  · rw [exec_discardFilling ht hd, exec_discardReady ht hd, applyDiscard_other hp hl hc]
    exact ⟨rfl, rfl⟩
  · have hrest : (s.modSurf i Surface.discardReady).AtRest := by
      refine Fabric.rests_modSurf hr (Fabric.surfaceRests_of_lane ((Fabric.rests_iff.mp hr).2.1 i) ?_ ?_) fun j _ _ =>
        Surface.discardReady_closing hlists j.source
      · rw [Fabric.surf_modSurf_same, Surface.discardReady_eq]
        exact hlane
      · rw [Fabric.surf_modSurf_same, Surface.discardReady_eq]
    have hsurf : (s.modSurf i Surface.discardReady).surf i = (s.surf i).discardReady := s.surf_modSurf_same i _
    refine ⟨(s.modSurf i Surface.discardReady).replied .ok [BitVec.ofNat 8 (s.surf i).present.length], ?_, ?_, fun b r hb => ?_⟩
    · rw [exec_discardReady ht hd, applyDiscard_ready hp hl, if_neg hpres, State.finish_of_rest _ hrest, State.answer_okWith]
    · refine congrArg (fun t : State => t.replied .ok [BitVec.ofNat 8 (s.surf i).present.length]) ?_
      refine congrArg (fun f : Fabric => ({ s with fab := f } : State)) (Fabric.modSurf_congr _ _ ?_)
      change (s.surf i).discardReady = { s.surf i with bufs := ((s.modSurf i Surface.discardReady).surf i).bufs, present := [] }
      rw [hsurf, Surface.discardReady_eq]
    · change ((s.modSurf i Surface.discardReady).surf i).bufs[b]? = _
      rw [hsurf, Surface.discardReady_eq, List.getElem?_mapIdx, hb]
      rfl
  · intro ht hr hsafe hlists hlane hw hpc hpres u
    have hv : (s.fab.modSurf i Surface.discardReady).surf i = (s.surf i).discardReady := s.fab.surf_modSurf_same i _
    have hdr := (s.surf i).discardReady_eq
    obtain ⟨X, hX, hXs, hfin⟩ := State.finish_beside hr (s.fab.beside_modSurf i Surface.discardReady)
    have hlife : (s.surf i).discardReady.life = .attached := by rw [hdr]; exact hl
    have hq : (s.surf i).discardReady.lane ≠ [] := by rw [hdr]; exact hlane
    have hp' : (s.surf i).discardReady.closePending = false := by rw [hdr]; exact hpc
    have hh : (s.surf i).discardReady.head = .waiting := by rw [hdr]; exact hw
    have hf : (s.surf i).discardReady.filling = none :=
      Surface.filling_of_waiting ((s.surf i).keeps_discardReady.buffers hsafe) hh
    refine ⟨X.replied .ok [BitVec.ofNat 8 (s.surf i).present.length], ?_, ?_, ?_, ?_, fun hc => ?_, (congrArg State.tags hXs :),
      (congrArg State.issued hXs :)⟩
    · rw [exec_discardReady ht hd, applyDiscard_ready hp hl, if_neg hpres, State.answer_okWith]
      exact congrArg (fun t : State => (Host.Outcome.next (t.replied .ok [BitVec.ofNat 8 (s.surf i).present.length]) :
        Host.Outcome State Fault Refusal)) hX
    · exact (congrArg (fun t : State => (t.replied .ok [BitVec.ofNat 8 (s.surf i).present.length]).link) hXs :)
    · have h := State.present_of_waiting hv hfin hlife hq hf hp' hh
      rw [hdr] at h
      exact h
    · have hu : u = (s.surf i).discardReady := hdr.symm
      rw [hu]
      exact State.headDecided_of (t := X) hv hfin (.refl _ _) hlife hq hf hp' hh
    · obtain ⟨hh', he⟩ := State.quiet_of_waiting hv hfin hlife hq hf hp' hh (by rw [hdr]; exact hc)
      rw [hdr] at hh'
      exact ⟨hh', he⟩

end Sys2Proof.Machine

/-! # A mapped head (R13, R66, R79, R89) -/

namespace Sys2Proof.Machine

set_option Elab.async false

/-! ## The converter forms a part or spills, not both -/

theorem spilled_of_closeRun {c : Prop} [Decidable c] {x : Handled} {slot : Option Slot} {run : Run} {ps : List PixelMap}
    (hx : x.part ≠ none → x.spilled = none) (h : (if c then x else closeRun slot run ps).part ≠ none) :
    (if c then x else closeRun slot run ps).spilled = none := by
  by_cases hc : c
  · rw [if_pos hc] at h ⊢
    exact hx h
  · rw [if_neg hc]
    rfl

theorem handleWrite_part_spilled (b : Nat) (ps : List PixelMap) (slot : Option Slot) (run : Run)
    (h : (handleWrite b slot run ps).part ≠ none) : (handleWrite b slot run ps).spilled = none := by
  induction ps generalizing slot run with
  | nil => rfl
  | cons p ps ih =>
    by_cases hfull : p.bytes.all Option.isSome = true
    · rw [handleWrite_full _ _ _ _ hfull] at h ⊢
      exact spilled_of_closeRun (ih _ _) h
    by_cases hnone : p.bytes.all Option.isNone = true
    · rw [handleWrite_skips _ _ _ _ hfull hnone] at h ⊢
      exact spilled_of_closeRun (ih _ _) h
    cases slot with
    | none =>
      rw [handleWrite_takes _ _ _ hfull hnone] at h ⊢
      exact spilled_of_closeRun (ih _ _) h
    | some t =>
      by_cases ht : slotIs (some t) p.px b = true
      · by_cases ha : (overlay t.bytes p.bytes).all Option.isSome = true
        · rw [handleWrite_fills _ _ _ hfull hnone ht ha] at h ⊢
          exact spilled_of_closeRun (ih _ _) h
        · rw [handleWrite_overlays _ _ _ hfull hnone ht ha] at h ⊢
          exact spilled_of_closeRun (ih _ _) h
      · rw [handleWrite_spills _ _ _ hfull hnone ht] at h ⊢
        exact spilled_of_closeRun (fun hn => absurd rfl hn) h

theorem handleRead_part_spilled (b : Nat) (ps : List PixelMap) (slot : Option Slot) (run : Run)
    (h : (handleRead b slot run ps).part ≠ none) : (handleRead b slot run ps).spilled = none := by
  induction ps generalizing slot run with
  | nil => rfl
  | cons p ps ih =>
    rw [handleRead] at h ⊢
    by_cases hs : slotIs slot p.px b = true
    · rw [if_pos hs] at h ⊢
      exact spilled_of_closeRun (fun hn => absurd rfl hn) h
    · rw [if_neg hs] at h ⊢
      exact spilled_of_closeRun (ih _ _) h

theorem handled_part_spilled {kind : AccessKind} {b : Nat} {slot : Option Slot} {ps : List PixelMap} {run : Run}
    (h : (handled kind b slot ps).part = some run) : (handled kind b slot ps).spilled = none := by
  cases kind with
  | write => exact handleWrite_part_spilled b ps slot [] (by rw [show (handleWrite b slot [] ps).part = some run from h]; nofun)
  | read => exact handleRead_part_spilled b ps slot [] (by rw [show (handleRead b slot [] ps).part = some run from h]; nofun)

/-- Without a pixel the converter forms nothing. -/
theorem handled_nil (kind : AccessKind) (b : Nat) (slot : Option Slot) :
    handled kind b slot [] = { slot := slot, spilled := none, part := none, todo := [] } := by
  cases kind <;> rfl

/-! ## When a mapped head waits -/

theorem Fabric.headReady_iff {f : Fabric} {i : Fin 8} {m : Mapping} : f.headReady i m = true ↔
    ¬ ((f.surf i).mergeOutstanding = true ∨
      ∃ j k, f.jobOf i m.buf = some j ∧ k ∈ m.stripes ∧ (j.stateOf k = some .pending ∨ j.stateOf k = some .copying)) := by
  have hdone : f.stripesDone i m = true ↔
      ∀ j k, f.jobOf i m.buf = some j → k ∈ m.stripes → ¬ (j.stateOf k = some .pending ∨ j.stateOf k = some .copying) := by
    unfold Fabric.stripesDone
    cases f.jobOf i m.buf with
    | none => exact ⟨fun _ j k h => (by cases h), fun _ => rfl⟩
    | some j =>
      dsimp only
      rw [List.all_eq_true]
      have one : ∀ k, (j.stateOf k == none || j.stateOf k == some .done) = true ↔
          ¬ (j.stateOf k = some .pending ∨ j.stateOf k = some .copying) := fun k => by
        rcases j.stateOf k with _ | st
        · simp
        · cases st <;> simp
      constructor
      · rintro h j' k hj hk
        obtain rfl := Option.some.inj hj
        exact (one k).mp (h k hk)
      · exact fun h k hk => (one k).mpr (h j k rfl hk)
  rw [Fabric.headReady, Bool.and_eq_true, hdone, not_or, Bool.not_eq_true', Bool.not_eq_true]
  constructor
  · rintro ⟨h1, h2⟩
    exact ⟨h2, fun ⟨j, k, hj, hk, h⟩ => h1 j k hj hk h⟩
  · rintro ⟨h2, h1⟩
    exact ⟨fun j k hj hk h => h1 ⟨j, k, hj, hk, h⟩, h2⟩

/-! ## The stages after the mapping -/

/-- What the lane does at once for a head once it has asked for its buffer. -/
def Fabric.laterStages (f : Fabric) (env : Env) (i : Fin 8) (q : LaneReq) : Fabric :=
  ((f.bindStage i).handleStage i q).leaveStage env i q

theorem Fabric.stepHead_later (f : Fabric) (env : Env) (i : Fin 8) (q : LaneReq) :
    f.stepHead env i q = (f.askStage env i q).laterStages env i q := rfl

section
variable {f : Fabric} {i : Fin 8} {m : Mapping} (env : Env) (q : LaneReq) (hh : (f.surf i).head = .mapped m)
include hh

/-- A head that stays mapped after the second stage ends its go there. -/
theorem Fabric.laterStages_of_bind (hb : f.bindHead i m = f) : f.laterStages env i q = f := by
  unfold Fabric.laterStages
  have hbind : f.bindStage i = f := by
    rw [Fabric.bindStage, hh]
    exact hb
  rw [hbind, Fabric.handleStage, hh]
  dsimp only
  rw [Fabric.leaveStage, hh]

/-- A mapped head whose stripes are not done, or before which a merge is outstanding, waits. -/
theorem Fabric.laterStages_unready (hr : f.headReady i m = false) : f.laterStages env i q = f := by
  refine Fabric.laterStages_of_bind env q hh ?_
  rw [Fabric.bindHead, hr]
  rfl

/-- A STREAM head with parts waits for its first grant. -/
theorem Fabric.laterStages_stream {plan : StreamPlan} (hp : m.plan = .stream plan) (hr : plan.runs ≠ []) :
    f.laterStages env i q = f := by
  refine Fabric.laterStages_of_bind env q hh ?_
  rw [Fabric.bindHead, hp]
  dsimp only
  rw [if_neg hr, ite_self]

/-- A DIRECT head that may be bound is bound to all its pixels. -/
theorem Fabric.bindStage_direct {ps : List PixelMap} (hr : f.headReady i m = true) (hp : m.plan = .direct ps) :
    f.bindStage i = f.modSurf i (fun su => { su with head := .bound { buf := m.buf, issued := false, todo := ps, parts := [] } }) := by
  rw [Fabric.bindStage, hh]
  dsimp only
  rw [Fabric.bindHead, if_pos hr, hp]

/-- A DIRECT head of whose pixels nothing spills: its converter's part and what is left of the pixels are bound. -/
theorem Fabric.handleStage_direct {ps : List PixelMap} (hr : f.headReady i m = true) (hp : m.plan = .direct ps) {x : Handled}
    (hx : handled q.req.kind m.buf (f.surf i).slot ps = x) (hs : x.spilled = none) :
    (f.bindStage i).handleStage i q = f.modSurf i (fun su => { su with
      slot := x.slot, head := .bound { buf := m.buf, issued := false, todo := x.todo, parts := x.part.toList } }) := by
  have hmerge : (f.surf i).mergeOutstanding = false := by
    have := Fabric.headReady_iff.mp hr
    exact Bool.eq_false_iff.mpr fun h => this (.inl h)
  rw [Fabric.bindStage_direct hh hr hp]
  generalize hg : f.modSurf i (fun su => { su with head := .bound { buf := m.buf, issued := false, todo := ps, parts := [] } }) = g
  have hsurf : g.surf i = { f.surf i with head := .bound { buf := m.buf, issued := false, todo := ps, parts := [] } } := by
    rw [← hg, Fabric.surf_modSurf_same]
  rw [Fabric.handleStage, hsurf]
  dsimp only
  rw [Fabric.handleHead_eq, hsurf]
  dsimp only
  rw [hx, hs]
  dsimp only
  split
  case isTrue h =>
    rcases h with h | h | h
    · exact absurd rfl h
    · subst h
      rw [handled_nil] at hx
      subst hx
      rw [← hg]
      exact Fabric.modSurf_congr _ _ rfl
    · exact absurd (h.symm.trans hmerge) (by simp)
  case isFalse =>
    rw [← hg, Fabric.modSurf_modSurf]

/-- A DIRECT head whose first pixels form a part is bound with it. -/
theorem Fabric.laterStages_bound {ps : List PixelMap} (hr : f.headReady i m = true) (hp : m.plan = .direct ps) {x : Handled}
    (hx : handled q.req.kind m.buf (f.surf i).slot ps = x) {run : Run} (hrun : x.part = some run) :
    f.laterStages env i q = f.modSurf i (fun su => { su with
      slot := x.slot, head := .bound { buf := m.buf, issued := false, todo := x.todo, parts := [run] } }) := by
  unfold Fabric.laterStages
  have hs : x.spilled = none := by
    subst hx
    exact handled_part_spilled hrun
  rw [Fabric.handleStage_direct q hh hr hp hx hs, hrun, Fabric.leaveStage, Fabric.surf_modSurf_same]
  rfl

end

/-! ## A head that leaves the lane -/

theorem Fabric.surf_markDone (f : Fabric) (id : Nat) (i : Fin 8) : (f.markDone id).surf i = f.surf i :=
  (f.beside_markDone (i + 1) id).surf i (by simp)

/-- Without a pending close a head that leaves only has its record marked. -/
theorem Fabric.leaveLane_of_open (f : Fabric) (env : Env) (i : Fin 8) (q : LaneReq) (hp : (f.surf i).closePending = false) :
    f.leaveLane env i q = (f.modSurf i (fun su => { su with lane := su.lane.tail, head := .fresh })).markDone q.id := by
  have hc : (((f.modSurf i (fun su => { su with lane := su.lane.tail, head := .fresh })).markDone q.id).surf i).closePending = false := by
    rw [Fabric.surf_markDone, Fabric.surf_modSurf_same]
    exact hp
  unfold Fabric.leaveLane
  dsimp only
  rw [hc]
  exact if_neg Bool.false_ne_true

section
variable {f : Fabric} {i : Fin 8} {m : Mapping} (env : Env) (q : LaneReq) (hh : (f.surf i).head = .mapped m)
  (hr : f.headReady i m = true) (hc : (f.surf i).closePending = false)
include hh hr hc

/-- A DIRECT head without part, spill or pixel left leaves the lane with the slot as the converter leaves it. -/
theorem Fabric.laterStages_direct_leaves {ps : List PixelMap} (hp : m.plan = .direct ps) {x : Handled}
    (hx : handled q.req.kind m.buf (f.surf i).slot ps = x) (hpart : x.part = none) (hs : x.spilled = none) (ht : x.todo = []) :
    f.laterStages env i q =
      (f.modSurf i (fun su => { su with slot := x.slot, lane := su.lane.tail, head := .fresh })).markDone q.id := by
  unfold Fabric.laterStages
  rw [Fabric.handleStage_direct q hh hr hp hx hs, hpart, ht, Fabric.leaveStage, Fabric.surf_modSurf_same]
  refine (Fabric.leaveLane_of_open _ env i q ?_).trans ?_
  · rw [Fabric.surf_modSurf_same]
    exact hc
  · rw [Fabric.modSurf_modSurf]

/-- A STREAM head without parts leaves the lane with the slot and the cursor that its mapping gives. -/
theorem Fabric.laterStages_stream_leaves {plan : StreamPlan} (hp : m.plan = .stream plan) (hq : m.Quiet) (hruns : plan.runs = []) :
    f.laterStages env i q = (f.modSurf i (fun su => { su with
      slot := plan.slotAfter
      latch := su.latch.map (fun l => { l with stream := l.stream.map (fun s => { s with cx := plan.cx, cy := plan.cy }) })
      lane := su.lane.tail
      head := .fresh })).markDone q.id := by
  have hbind : f.bindStage i = f.modSurf i (fun su => { su.commitStream plan with
      head := .bound { buf := m.buf, issued := false, todo := [], parts := [] } }) := by
    rw [Fabric.bindStage, hh]
    dsimp only
    rw [Fabric.bindHead, if_pos hr, hp]
    dsimp only
    rw [if_pos hruns]
  unfold Fabric.laterStages
  rw [hbind]
  generalize hg : f.modSurf i (fun su => { su.commitStream plan with
      head := .bound { buf := m.buf, issued := false, todo := [], parts := [] } }) = g
  have hsurf : g.surf i = { (f.surf i).commitStream plan with
      head := .bound { buf := m.buf, issued := false, todo := [], parts := [] } } := by
    rw [← hg, Fabric.surf_modSurf_same]
  have hhandle : g.handleStage i q = g := by
    rw [Fabric.handleStage, hsurf]
    dsimp only
    rw [Fabric.handleHead_eq]
    exact if_pos (.inr (.inl rfl))
  have hopen : ((f.surf i).commitStream plan).closePending = false := by
    rw [Surface.commitStream, hq plan hp hruns, hc]
    rfl
  rw [hhandle, Fabric.leaveStage, hsurf]
  refine (Fabric.leaveLane_of_open _ env i q ?_).trans ?_
  · rw [hsurf]
    exact hopen
  · rw [← hg, Fabric.modSurf_modSurf]
    refine congrArg (fun g : Fabric => g.markDone q.id) (Fabric.modSurf_congr f i ?_)
    rw [Surface.commitStream, hq plan hp hruns, Bool.or_false]

end

end Sys2Proof.Machine

/-! # A producer request joins its lane (R12, R13, R66, R79) -/

namespace Sys2Proof.Machine

set_option Elab.async false

/-! ## The request accepted -/

/-- The record of a producer request that has joined its lane. -/
def Fabric.laneRecord (f : Fabric) (r : UpRequest) : RespRecord :=
  { id := f.nextId, tag := r.tag, kind := r.kind, issued := 0, mark := false, worst := .okay
    data := if r.kind = .read then List.replicate r.len 0 else [] }

/-- The fabric with a producer request accepted into surface `i`, which then is `v`. -/
def Fabric.joined (f : Fabric) (i : Fin 8) (r : UpRequest) (v : Surface) : Fabric :=
  { f.modSurf i (fun _ => v) with records := f.records ++ [f.laneRecord r], nextId := f.nextId + 1 }

/-- The lane entry of a request. -/
def Fabric.laneReq (f : Fabric) (r : UpRequest) : LaneReq := { id := f.nextId, req := r }

/-- The fabric to which a request is offered. -/
def Fabric.offering (f : Fabric) (r : UpRequest) : Fabric := { f with offered := [r] }

section
variable (f : Fabric) (i : Fin 8) (r : UpRequest) (v : Surface)

theorem Fabric.surf_joined : (f.joined i r v).surf i = v := f.surf_modSurf_same i fun _ => v

theorem Fabric.surf_joined_other {k : Fin 8} (hk : k ≠ i) : (f.joined i r v).surf k = f.surf k :=
  f.surf_modSurf_other (fun _ => v) (Ne.symm hk)

theorem Fabric.modSurf_joined (g : Surface → Surface) : (f.joined i r v).modSurf i g = f.joined i r (g v) := by
  have hs : (f.modSurf i (fun _ => v)).modSurf i g = f.modSurf i (fun _ => g v) := f.modSurf_modSurf i _ g
  have h := congrArg Fabric.surfaces hs
  rw [Fabric.modSurf, Fabric.surf_joined]
  rw [Fabric.modSurf, Fabric.surf_modSurf_same] at h
  exact congrArg (fun l => ({ f.joined i r v with surfaces := l } : Fabric)) h

theorem Fabric.joined_beside : Fabric.Beside i ({ f with nextId := f.nextId + 1 } : Fabric) (f.joined i r v) :=
  (Fabric.beside_modSurf _ i (fun _ => v)).trans (Fabric.beside_books _ i _ _ _ _ _)

end

/-- A surface that rests after one go over its lane head has settled. -/
theorem Fabric.settleSurface_step {f h : Fabric} {i : Fin 8} {q : LaneReq} {qs : List LaneReq} (env : Env)
    (hl : (f.surf i).life = .attached) (hq : (f.surf i).lane = q :: qs) (hstep : f.stepHead env i q = h)
    (hs : h.surfaceRests i = true) : Fabric.settleSurface env f i = h := by
  rw [Fabric.settleSurface, hq, Fabric.runLane, if_pos hl, hq]
  dsimp only
  rw [hstep, Fabric.runLane_of_rests h env i ?_, Fabric.presentMerge_of_rests hs]
  rw [Fabric.surfaceRests, Bool.and_eq_true] at hs
  simpa [or_assoc] using hs.1

section
variable {f : Fabric} {i : Fin 8} {r : UpRequest} {v : Surface} (hr : f.rests = true)
include hr

theorem Fabric.joined_surfaceRests {k : Fin 8} (hk : k ≠ i) : ((f.offering r).joined i r v).surfaceRests k = true :=
  (((f.offering r).joined_beside i r v).surfaceRests hk).trans ((Fabric.rests_iff.mp hr).2.1 k)

theorem Fabric.joined_engineRests (hv : v.bufs = (f.surf i).bufs) : ((f.offering r).joined i r v).engineRests = true := by
  refine (Fabric.engineRests_congr (f := f) (g := (f.offering r).joined i r v) rfl fun j _ => ?_).trans (Fabric.rests_iff.mp hr).2.2.2
  unfold Fabric.startable
  by_cases hk : j.surface = i
  · rw [hk, Fabric.surf_joined, Surface.buf, Surface.buf, hv]
  · rw [Fabric.surf_joined_other _ i r v hk]
    rfl

theorem Fabric.joined_settle (env : Env) : ((f.offering r).joined i r v).settle env =
    Fabric.runEngine 5 (Fabric.settleSurface env ((f.offering r).joined i r v) i) :=
  Fabric.settle_of_others env i (fun _ hk => Fabric.joined_surfaceRests hr hk) (Fabric.rests_iff.mp hr).2.2.1

/-- One go over the head of a lane of one request, after which the surface and the engine rest. -/
theorem Fabric.joined_settle_step (env : Env) {q : LaneReq} {h : Fabric} (hl : v.life = .attached) (hq : v.lane = [q])
    (hstep : ((f.offering r).joined i r v).stepHead env i q = h) (hs : h.surfaceRests i = true) (he : h.engineRests = true) :
    ((f.offering r).joined i r v).settle env = h := by
  have hv := (f.offering r).surf_joined i r v
  rw [Fabric.joined_settle hr, Fabric.settleSurface_step (qs := []) env (by rw [hv]; exact hl) (by rw [hv]; exact hq) hstep hs,
    Fabric.runEngine_of_rests h he]

theorem Fabric.joined_surfaceRests_of_head (hm : v.merges = (f.surf i).merges)
    (hh : v.lane = [] ∨ ((f.offering r).joined i r v).headRests i = true) : ((f.offering r).joined i r v).surfaceRests i = true := by
  rw [Fabric.surfaceRests, Bool.and_eq_true, Fabric.surf_joined]
  refine ⟨?_, ?_⟩
  · rcases hh with h | h
    · rw [h]
      rfl
    · rw [h, Bool.or_true]
  · have hc : v.mergeClaim = (f.surf i).mergeClaim := by simp only [Surface.mergeClaim, Surface.firstOutstanding, hm]
    rw [hc]
    exact Fabric.claim_presented ((Fabric.rests_iff.mp hr).2.1 i)

end

theorem Fabric.jobOf_joined (f : Fabric) (i : Fin 8) (r : UpRequest) {v : Surface} (hv : v.deferred = (f.surf i).deferred) (b : Nat) :
    ((f.offering r).joined i r v).jobOf i b = f.jobOf i b := by
  refine Fabric.jobOf_congr (f := f) (g := (f.offering r).joined i r v) rfl ?_ b
  rw [Fabric.surf_joined, hv]

theorem Fabric.classify_live {f : Fabric} {env : Env} {r : UpRequest} {i : Fin 8} (hc : f.classify env r = .producer i) :
    (f.surf i).life.live = true := by
  unfold Fabric.classify at hc
  split at hc
  · cases hc
  · split at hc
    · cases hc
    · next x hx =>
      have hmem : x ∈ f.met r := by rw [hx]; exact List.mem_singleton_self x
      obtain rfl : x = i := by
        split at hc
        · cases hc
        · split at hc
          · split at hc <;> cases hc
          · exact RequestClass.producer.inj hc
      rw [Fabric.met, List.mem_filter, Bool.and_eq_true] at hmem
      exact hmem.2.1
    · cases hc

section
variable {s : State} {r : UpRequest} {i : Fin 8} (hr : s.AtRest) (hd : s.device = .running)
  (hc : s.fab.classify s.env r = .producer i) (hf : (s.surf i).refusesProducer r = false)

include hc hf in
theorem Surface.attached_of_producer : (s.surf i).life = .attached := by
  rcases Lifecycle.live_iff.mp (Fabric.classify_live hc) with h | h
  · exact h
  · rw [Surface.refusesProducer, if_pos (show (s.surf i).life = .detaching from h)] at hf
    cases hf

include hc hf in
theorem accept_producer (hl : (s.surf i).lane.length < 8) : ({ s.fab with offered := [r] } : Fabric).accept s.env r =
    (s.fab.offering r).joined i r { s.surf i with lane := (s.surf i).lane ++ [s.fab.laneReq r] } := by
  rw [Fabric.accept, show ({ s.fab with offered := [r] } : Fabric).classify s.env r = .producer i from hc]
  dsimp only
  rw [Fabric.acceptProducer, if_neg (by rw [show (({ s.fab with offered := [r] } : Fabric).surf i).refusesProducer r = false from hf]; simp),
    if_neg (show ¬ laneRoom ≤ (({ s.fab with offered := [r] } : Fabric).surf i).lane.length from Nat.not_le.mpr hl), emptyArea_eq]
  rfl

include hr hd hc hf

/-- A producer request that is not refused and finds room joins the lane, and the part settles. -/
theorem exec_producer (hl : (s.surf i).lane.length < 8) {f : Fabric}
    (hs : ((s.fab.offering r).joined i r { s.surf i with lane := (s.surf i).lane ++ [s.fab.laneReq r] }).settle s.env = f.offering r)
    (ho : f.offered = []) : exec (.upstreamRequest r) s = .next { s with fab := f } := by
  have hm : s.fab.mayAccept s.env r = true :=
    Fabric.mayAccept_of_running (State.env_running hd) (fun h => by simp [hc] at h) fun k h => by simp [hc] at h
  rw [exec_upstreamRequest_of_rest r hr, if_pos hm, accept_producer hc hf hl, hs, Fabric.offering, ← ho]

/-- The lane goes on resting behind its head. -/
theorem exec_producer_behind (hne : (s.surf i).lane ≠ []) (hl : (s.surf i).lane.length < 8) :
    exec (.upstreamRequest r) s = .next { s with
      fab := s.fab.joined i r { s.surf i with lane := (s.surf i).lane ++ [s.fab.laneReq r] } } := by
  refine exec_producer hr hd hc hf hl ?_ (Fabric.rests_iff.mp hr).1
  generalize hv : ({ s.surf i with lane := (s.surf i).lane ++ [s.fab.laneReq r] } : Surface) = v
  have hvm : v.merges = (s.surf i).merges := by rw [← hv]
  have hvh : v.head = (s.surf i).head := by rw [← hv]
  have hvd : v.deferred = (s.surf i).deferred := by rw [← hv]
  have hvb : v.bufs = (s.surf i).bufs := by rw [← hv]
  have ha := Surface.attached_of_producer hc hf
  have hrest := (Fabric.rests_iff.mp hr).2.1 i
  have hout : v.mergeOutstanding = (s.surf i).mergeOutstanding := by rw [Surface.mergeOutstanding, hvm]; rfl
  have hready : ((s.fab.offering r).joined i r v).headReady i = s.fab.headReady i := by
    funext m
    simp only [Fabric.headReady, Fabric.stripesDone, Fabric.jobOf_joined s.fab i r hvd, Fabric.surf_joined, hout]
    rfl
  have hhead : ((s.fab.offering r).joined i r v).headRests i = s.fab.headRests i := by
    unfold Fabric.headRests
    rw [Fabric.surf_joined, hvh, hready, hout, Surface.chooseFree_isNone (su := s.surf i) (by rw [Surface.states, hvb]; rfl)]
    rfl
  refine (Fabric.settle_of_others s.env i (fun _ hk => Fabric.joined_surfaceRests hr hk) (Fabric.rests_iff.mp hr).2.2.1).trans ?_
  rw [Fabric.settleSurface_of_rests _ _ _ (Fabric.joined_surfaceRests_of_head hr hvm (.inr ?_)),
    Fabric.runEngine_of_rests _ (Fabric.joined_engineRests hr hvb)]
  · rfl
  · rw [hhead]
    rw [Fabric.surfaceRests, Bool.and_eq_true, Bool.or_eq_true, Bool.or_eq_true] at hrest
    exact hrest.1.resolve_left fun h => h.elim (fun h => hne (of_decide_eq_true h)) fun h => of_decide_eq_true h ha

end

end Sys2Proof.Machine

/-! # The first head of a FILLING buffer's lane (R12, R13, R66, R79) -/

namespace Sys2Proof.Machine

set_option Elab.async false

theorem Fabric.askStage_of_filling {f : Fabric} {i : Fin 8} {b : Nat} (env : Env) (q : LaneReq) (hh : (f.surf i).head = .fresh)
    (hf : (f.surf i).filling = some b) : f.askStage env i q = f.mapInto i b q := by
  rw [Fabric.askStage, hh]
  dsimp only
  rw [Fabric.askBuffer, hf]

section
variable {s : State} {r : UpRequest} {i : Fin 8} (hr : s.AtRest) (hd : s.device = .running)
  (hc : s.fab.classify s.env r = .producer i) (hf : (s.surf i).refusesProducer r = false)
  {b : Nat} (hlane : (s.surf i).lane = []) (hhead : (s.surf i).head = .fresh) (hfill : (s.surf i).filling = some b)

/-- The surface whose lane holds the request alone, mapped into the FILLING buffer. -/
def State.mappedHead (s : State) (i : Fin 8) (b : Nat) (r : UpRequest) : Surface :=
  { s.surf i with lane := [s.fab.laneReq r], head := .mapped ((s.surf i).mapHead b r) }

include hr hd hc hf hlane hhead hfill

/-- The lane of the request alone does what its mapped head does. -/
theorem exec_producer_head {h : Fabric}
    (hstep : ((s.fab.offering r).joined i r (s.mappedHead i b r)).laterStages s.env i (s.fab.laneReq r) = h.offering r)
    (hs : (h.offering r).surfaceRests i = true) (he : (h.offering r).engineRests = true) (ho : h.offered = []) :
    exec (.upstreamRequest r) s = .next { s with fab := h } := by
  refine exec_producer hr hd hc hf (by rw [hlane]; decide) ?_ ho
  rw [hlane]
  refine Fabric.joined_settle_step hr s.env (Surface.attached_of_producer hc hf) rfl ?_ hs he
  have hv := (s.fab.offering r).surf_joined i r { s.surf i with lane := [] ++ [s.fab.laneReq r] }
  rw [Fabric.stepHead_later, Fabric.askStage_of_filling s.env _ (by rw [hv]; exact hhead) (by rw [hv]; exact hfill),
    Fabric.mapInto, Fabric.modSurf_joined]
  exact hstep

/-- A head that stays mapped. -/
theorem exec_producer_mapped
    (hstep : ((s.fab.offering r).joined i r (s.mappedHead i b r)).laterStages s.env i (s.fab.laneReq r) =
      (s.fab.offering r).joined i r (s.mappedHead i b r))
    (hrest : ((s.fab.offering r).joined i r (s.mappedHead i b r)).headReady i ((s.surf i).mapHead b r) = false ∨
      ∃ plan, ((s.surf i).mapHead b r).plan = .stream plan ∧ plan.runs ≠ []) :
    exec (.upstreamRequest r) s = .next { s with fab := s.fab.joined i r (s.mappedHead i b r) } := by
  refine exec_producer_head hr hd hc hf hlane hhead hfill (h := s.fab.joined i r (s.mappedHead i b r)) hstep
    (Fabric.joined_surfaceRests_of_head hr rfl (.inr ?_)) (Fabric.joined_engineRests hr rfl) (Fabric.rests_iff.mp hr).1
  unfold Fabric.headRests
  rw [Fabric.surf_joined]
  dsimp only [State.mappedHead]
  rcases hrest with h | ⟨plan, hp, hn⟩
  · rw [State.mappedHead] at h
    rw [h]
    rfl
  · rw [hp]
    simp [hn]


/-- A head that leaves the lane at once, its record just opened. -/
theorem exec_producer_leaves {v : Surface} (hn : ∀ y ∈ s.fab.records, y.id ≠ s.fab.nextId) (hw : r.kind = .write)
    (hstep : ((s.fab.offering r).joined i r (s.mappedHead i b r)).laterStages s.env i (s.fab.laneReq r) =
      ((s.fab.offering r).joined i r { v with lane := [], head := .fresh }).markDone s.fab.nextId)
    (hm : v.merges = (s.surf i).merges) (hb : v.bufs = (s.surf i).bufs) :
    exec (.upstreamRequest r) s = .next { s with fab := { s.fab.modSurf i (fun _ => { v with lane := [], head := .fresh }) with
      sent := s.fab.sent ++ [{ tag := r.tag, code := .okay, data := [] }], nextId := s.fab.nextId + 1 } } := by
  have hdone := Fabric.markDone_opened (f := (s.fab.offering r).joined i r { v with lane := [], head := .fresh })
    (recs := s.fab.records) (r := s.fab.laneRecord r) rfl hn rfl
  have hanswer : ({ s.fab.laneRecord r with mark := true } : RespRecord).answer = { tag := r.tag, code := .okay, data := [] } := by
    simp [RespRecord.answer, Fabric.laneRecord, hw, Worst.code]
  rw [hanswer] at hdone
  have hrest := Fabric.joined_surfaceRests_of_head (f := s.fab) (i := i) (r := r) (v := { v with lane := [], head := .fresh }) hr hm (.inl rfl)
  have heng := Fabric.joined_engineRests (f := s.fab) (i := i) (r := r) (v := { v with lane := [], head := .fresh }) hr hb
  exact exec_producer_head hr hd hc hf hlane hhead hfill (hstep.trans hdone) hrest heng (Fabric.rests_iff.mp hr).1

end

/-- Settles O47. -/
theorem producerJoinsLane : Obligations.ProducerJoinsLane := by
  intro s r i hr hd hc hf
  refine ⟨fun hne hl => exec_producer_behind hr hd hc hf hne hl, fun b x hlane hhead hpend hsafe hx hst hn => ?_⟩
  have hfill : (s.surf i).filling = some b := Surface.filling_eq_of hsafe.1 hx hst
  have hready : ((s.fab.offering r).joined i r (s.mappedHead i b r)).headReady i ((s.surf i).mapHead b r) = true ↔
      ¬ ((s.surf i).mergeOutstanding = true ∨ ∃ j k, s.fab.jobOf i b = some j ∧ k ∈ ((s.surf i).mapHead b r).stripes ∧
        (j.stateOf k = some .pending ∨ j.stateOf k = some .copying)) := by
    rw [Fabric.headReady_iff, Fabric.surf_joined, Surface.mapHead_buf, Fabric.jobOf_joined s.fab i r (v := s.mappedHead i b r) rfl]
    rfl
  have hmapped : (((s.fab.offering r).joined i r (s.mappedHead i b r)).surf i).head = .mapped ((s.surf i).mapHead b r) := by
    rw [Fabric.surf_joined]
    rfl
  have hopen : (((s.fab.offering r).joined i r (s.mappedHead i b r)).surf i).closePending = false := by
    rw [Fabric.surf_joined]
    exact hpend
  refine ⟨fun hw => ?_, fun ps hw hp => ⟨fun run hrun => ?_, fun hwr hpart hspill htodo => ?_⟩, fun plan hw hwr hp => ⟨fun hruns => ?_, fun hruns => ?_⟩⟩
  · have hun := Bool.eq_false_iff.mpr fun h => hready.mp h hw
    exact exec_producer_mapped hr hd hc hf hlane hhead hfill (Fabric.laterStages_unready _ _ hmapped hun) (.inl hun)
  · have hrun' : (handled r.kind b (s.surf i).slot ps).part = some run := hrun
    have hlater := Fabric.laterStages_bound (x := handled r.kind b (s.surf i).slot ps) s.env (s.fab.laneReq r) hmapped
      (hready.mpr hw) hp (by rw [Fabric.surf_joined, Surface.mapHead_buf]; rfl) hrun'
    rw [Fabric.modSurf_joined, Surface.mapHead_buf] at hlater
    refine exec_producer_head hr hd hc hf hlane hhead hfill hlater (Fabric.joined_surfaceRests_of_head hr rfl (.inr ?_))
      (Fabric.joined_engineRests hr rfl) (Fabric.rests_iff.mp hr).1
    rw [Fabric.headRests, Fabric.surf_joined]
    rfl
  · have hhandled : handleWrite b (s.surf i).slot [] ps = handled r.kind b (s.surf i).slot ps := by
      rw [hwr]
      rfl
    have hlater := Fabric.laterStages_direct_leaves (x := handled r.kind b (s.surf i).slot ps) s.env (s.fab.laneReq r) hmapped
      (hready.mpr hw) hopen hp (by rw [Fabric.surf_joined, Surface.mapHead_buf]; rfl) hpart hspill htodo
    rw [Fabric.modSurf_joined] at hlater
    refine (exec_producer_leaves hr hd hc hf hlane hhead hfill (v := { s.surf i with slot := (handled r.kind b (s.surf i).slot ps).slot })
      hn hwr hlater rfl rfl).trans ?_
    rw [← hlane, ← hhead]
    rfl
  · exact exec_producer_mapped hr hd hc hf hlane hhead hfill (Fabric.laterStages_stream _ _ hmapped hp hruns) (.inr ⟨plan, hp, hruns⟩)
  · have hlater := Fabric.laterStages_stream_leaves s.env (s.fab.laneReq r) hmapped (hready.mpr hw) hopen hp (Surface.mapHead_quiet _ _ _) hruns
    rw [Fabric.modSurf_joined] at hlater
    refine (exec_producer_leaves hr hd hc hf hlane hhead hfill (v := { s.surf i with
      slot := plan.slotAfter
      latch := (s.surf i).latch.map (fun l => { l with stream := l.stream.map (fun y => { y with cx := plan.cx, cy := plan.cy }) }) })
      hn hwr hlater rfl rfl).trans ?_
    rw [← hlane, ← hhead]

end Sys2Proof.Machine

/-! # The first head of an empty lane (R89 to R93, R133 to R136) -/

namespace Sys2Proof.Machine

set_option Elab.async false

/-! ## The mapping of the head that opens a buffer -/

theorem Surface.mapHead_congr {su su' : Surface} {b : Nat} (r : UpRequest) (hd : su'.desc = su.desc) (hl : su'.latch = su.latch)
    (hs : su'.slot = su.slot) (hb : (su'.buf b).base = (su.buf b).base) : su'.mapHead b r = su.mapHead b r := by
  unfold Surface.mapHead
  rw [hd, hl, hs, hb]

/-- A DIRECT head under the latch that an open gives. -/
theorem Surface.mapHead_newLatch {su : Surface} (hm : su.desc.mode ≠ 1) (b : Nat) (r : UpRequest) :
    ({ su with latch := some su.desc.newLatch } : Surface).mapHead b r =
      { buf := b
        stripes := directStripes r.kind (directPixels su.desc su.desc.newLatch (su.buf b).base.toNat r)
        plan := .direct (directPixels su.desc su.desc.newLatch (su.buf b).base.toNat r) } := by
  have hs : su.desc.newLatch.stream = none := if_neg fun h => hm (Descriptor.isStream_iff.mp h)
  unfold Surface.mapHead
  dsimp only [Option.getD_some]
  rw [hs]
  rfl

/-! ## The job of the opened buffer -/

theorem Fabric.jobOf_addJob {f : Fabric} {j : CopyJob} (hn : f.jobOf j.surface j.target = none) :
    (f.addJob j).jobOf j.surface j.target = some j := by
  have hself : [j].find? (fun q => q.isFor j.surface j.target) = some j := by simp [CopyJob.isFor]
  rw [Fabric.jobOf_eq_queue_or, Option.or_eq_none_iff] at hn
  rcases f.addJob_cases j with ⟨-, h⟩ | ⟨-, h⟩
  · have hsurf : (f.modSurf j.surface (fun su => { su with deferred := su.deferred ++ [j] })).surf j.surface =
        { f.surf j.surface with deferred := (f.surf j.surface).deferred ++ [j] } := f.surf_modSurf_same _ _
    rw [h, Fabric.jobOf_eq_queue_or, hsurf]
    dsimp only
    rw [List.find?_append, hn.2, hself, Option.none_or]
    exact (congrArg (Option.or · _) hn.1).trans (Option.none_or)
  · rw [h, Fabric.jobOf_eq_queue_or]
    dsimp only
    rw [List.find?_append, hn.1, hself]
    rfl

theorem Fabric.jobOf_mapped (f : Fabric) (env : Env) (i : Fin 8) (b : Nat) (q : LaneReq) :
    ((f.openBuffer env i b).mapInto i b q).jobOf i b = (f.decideCopy env i b).jobOf i b :=
  (Fabric.jobOf_modSurf _ i i b rfl).trans (Fabric.jobOf_modSurf _ i i b rfl)

/-- An open that finds a source leaves the opened buffer a job of the whole copy set. -/
theorem Fabric.jobOf_opened {f : Fabric} (env : Env) {i : Fin 8} {b : Nat} (hn : f.jobOf i b = none) (hs : (f.surf i).copySet b ≠ [])
    (hsrc : ∃ (k : Nat) (y : BufRec), (f.surf i).bufs[k]? = some y ∧ y.content = (f.surf i).frameCounter) :
    ∃ k, (f.decideCopy env i b).jobOf i b = some (newJob i k b ((f.surf i).copySet b)) := by
  rcases f.decideCopy_cases env i b with ⟨h, -⟩ | ⟨-, h, -⟩ | ⟨-, k, y, -, -, -, hd⟩
  · exact absurd h hs
  · obtain ⟨k, y, hy, hc⟩ := hsrc
    exact absurd hc (h k y hy)
  · refine ⟨k, ?_⟩
    rw [hd]
    refine Fabric.jobOf_addJob (j := newJob i k b ((f.surf i).copySet b)) ?_
    exact (Fabric.jobOf_modSurf f i i b (by rfl)).trans hn

/-! ## The head once its buffer is open -/

section
variable {f h : Fabric} {env : Env} {i : Fin 8} {b : Nat} {q : LaneReq} {qs : List LaneReq} {x : BufRec}
  (hx : (f.surf i).bufs[b]? = some x) (hf : (f.surf i).filling = none)
include hx hf

/-- The surface of a head mapped into the buffer that has been opened for it. -/
theorem Fabric.surf_opened_mapped : ((f.openBuffer env i b).mapInto i b q).surf i =
    { (f.openBuffer env i b).surf i with head := .mapped (({ f.surf i with latch := some (f.surf i).desc.newLatch } : Surface).mapHead b q.req) } := by
  have ho := Fabric.openBuffer_opensAs env hx hf
  obtain ⟨y, hy, hbase⟩ := f.openBuffer_base env i b hx
  rw [Fabric.surf_mapInto]
  rw [Surface.mapHead_congr (su := { f.surf i with latch := some (f.surf i).desc.newLatch }) q.req]
  · rw [ho.rest]
  · rw [ho.rest]
  · rw [ho.rest]
  · rw [Surface.buf_of_some hy, hbase]
    exact (congrArg BufRec.base (Surface.buf_of_some hx)).symm

variable (hl : (f.surf i).life = .attached) (hq : (f.surf i).lane = q :: qs) (hh : (f.surf i).head = .fresh ∨ (f.surf i).head = .waiting)
  (hc : (f.surf i).chooseFree = some b)
include hl hq hh hc

/-- The lane settles with what follows the mapping, where the head then rests. -/
theorem Fabric.settleSurface_opened (hclaims : ∀ m, (f.surf i).mergeClaim = some m → m.presented.isSome = true)
    (hstep : ((f.openBuffer env i b).mapInto i b q).laterStages env i q = h) (hm : (h.surf i).merges = (f.surf i).merges)
    (hr : h.headRests i = true) : Fabric.settleSurface env f i = h := by
  refine Fabric.settleSurface_step env hl hq ?_ ?_
  · rw [Fabric.stepHead_later]
    rcases Fabric.askStage_cases (q := q) env hf hh with ⟨c, g, hfind, hask⟩ | ⟨hn, -⟩
    · obtain ⟨rfl, rfl⟩ := hfind.unique (.free hc)
      rw [hask]
      exact hstep
    · exact absurd (hn.symm.trans hc) nofun
  · have hclaim : (h.surf i).mergeClaim = (f.surf i).mergeClaim := by simp only [Surface.mergeClaim, Surface.firstOutstanding, hm]
    rw [Fabric.surfaceRests, hr, Bool.or_true, Bool.true_and, hclaim]
    cases hcl : (f.surf i).mergeClaim with
    | none => rfl
    | some m => exact hclaims m hcl

end

theorem Fabric.claims_presented {f : Fabric} {i : Fin 8} (h : f.surfaceRests i = true) :
    ∀ m, (f.surf i).mergeClaim = some m → m.presented.isSome = true := by
  intro m hm
  have := Fabric.claim_presented h
  rw [hm] at this
  exact this

/-! ## The request of an empty lane -/

/-- The fabric with the request alone in its lane, as the intake leaves it. -/
def State.firstHead (s : State) (i : Fin 8) (r : UpRequest) : Fabric :=
  (s.fab.offering r).joined i r { s.surf i with lane := [s.fab.laneReq r] }

section
variable {s : State} {r : UpRequest} {i : Fin 8}

theorem State.surf_firstHead : (s.firstHead i r).surf i = { s.surf i with lane := [s.fab.laneReq r] } :=
  Fabric.surf_joined _ i r _

theorem State.opensFrom_firstHead : s.OpensFrom (s.firstHead i r) i where
  copy := rfl
  bufs := by rw [State.surf_firstHead]
  history := by rw [State.surf_firstHead]
  desc := by rw [State.surf_firstHead]
  counter := by rw [State.surf_firstHead]
  deferred := by rw [State.surf_firstHead]

variable (hr : s.AtRest) (hd : s.device = .running) (hc : s.fab.classify s.env r = .producer i)
  (hf : (s.surf i).refusesProducer r = false) (hlane : (s.surf i).lane = [])
include hr hd hc hf hlane

/-- What the request of an empty lane leaves: `t'` is the part before the link is told. -/
theorem exec_producer_first : ∃ t t' : State, exec (.upstreamRequest r) s = .next t ∧
    t = { t' with fab := { t'.fab with offered := [] } } ∧ t' = { s with fab := t'.fab } ∧
    t'.fab = Fabric.runEngine 5 (Fabric.settleSurface s.env (s.firstHead i r) i) := by
  have hm : s.fab.mayAccept s.env r = true :=
    Fabric.mayAccept_of_running (State.env_running hd) (fun h => by simp [hc] at h) fun k h => by simp [hc] at h
  have ha : ({ s.fab with offered := [r] } : Fabric).accept s.env r = s.firstHead i r := by
    rw [accept_producer hc hf (by rw [hlane]; decide), hlane]
    rfl
  have hsettle : (s.firstHead i r).settle s.env = Fabric.runEngine 5 (Fabric.settleSurface s.env (s.firstHead i r) i) :=
    Fabric.joined_settle hr s.env
  have hexec := exec_upstreamRequest_of_rest r hr
  rw [if_pos hm, ha] at hexec
  generalize (s.firstHead i r).settle s.env = X at hsettle hexec
  exact ⟨_, { s with fab := X }, hexec, rfl, rfl, hsettle⟩

end

end Sys2Proof.Machine

/-! # What the first request of an empty lane opens -/

namespace Sys2Proof.Machine

set_option Elab.async false

theorem State.chooseFree_firstHead {s : State} {r : UpRequest} {i : Fin 8} {b : Nat} (hb : (s.surf i).FirstChoice b) :
    ((s.firstHead i r).surf i).chooseFree = some b := by
  rw [State.surf_firstHead]
  exact Surface.FirstChoice.chooseFree hb

theorem State.jobOf_firstHead {s : State} {r : UpRequest} {i : Fin 8} (b : Nat) : (s.firstHead i r).jobOf i b = s.fab.jobOf i b :=
  Fabric.jobOf_joined s.fab i r (v := { s.surf i with lane := [s.fab.laneReq r] }) rfl b

section
variable {s t : State} {r : UpRequest} {i : Fin 8} (hr : s.AtRest) (hlane : (s.surf i).lane = []) (hhead : (s.surf i).head = .fresh)
  (hpend : (s.surf i).closePending = false) (hnf : ∀ x ∈ (s.surf i).bufs, x.st ≠ .filling) (hl : (s.surf i).life = .attached)
  (ht : t.fab = Fabric.runEngine 5 (Fabric.settleSurface s.env (s.firstHead i r) i))
include hr hlane hhead hpend hnf hl

theorem State.firstHead_asks : ((s.firstHead i r).surf i).life = .attached ∧ ((s.firstHead i r).surf i).lane = [s.fab.laneReq r] ∧
    ((s.firstHead i r).surf i).filling = none ∧ ((s.firstHead i r).surf i).closePending = false ∧
    ((s.firstHead i r).surf i).head = .fresh ∧ (s.firstHead i r).engineRests = true ∧
    ∀ m, ((s.firstHead i r).surf i).mergeClaim = some m → m.presented.isSome = true := by
  have heng : (s.firstHead i r).engineRests = true := Fabric.joined_engineRests hr rfl
  rw [State.surf_firstHead]
  exact ⟨hl, rfl, Surface.filling_none.mpr hnf, hpend, hhead, heng, Fabric.claims_presented ((Fabric.rests_iff.mp hr).2.1 i)⟩

section
variable {b : Nat} (hb : (s.surf i).FirstChoice b)
include hb

/-- The head of the request that opens a FREE buffer, where it rests once it is mapped. -/
theorem State.surf_firstHead_settled {h : Fabric}
    (hstep : (((s.firstHead i r).openBuffer s.env i b).mapInto i b (s.fab.laneReq r)).laterStages s.env i (s.fab.laneReq r) = h)
    (hm : (h.surf i).merges = (s.surf i).merges) (hrest : h.headRests i = true)
    (ht : t.fab = Fabric.runEngine 5 (Fabric.settleSurface s.env (s.firstHead i r) i)) :
    t.surf i = { h.surf i with deferred := (t.surf i).deferred } := by
  obtain ⟨ha, hq, hf, -, hh, -, hcl⟩ := State.firstHead_asks (r := r) hr hlane hhead hpend hnf hl
  obtain ⟨x, hx, -⟩ := Surface.chooseFree_some hb.chooseFree
  rw [Fabric.settleSurface_opened (x := x) (by rw [State.surf_firstHead]; exact hx) hf ha hq (.inl hh)
    (State.chooseFree_firstHead hb) hcl hstep (by rw [State.surf_firstHead]; exact hm) hrest] at ht
  exact State.surf_of_engine ht i

/-- The surface with the request mapped into the buffer that it has opened. -/
theorem State.surf_firstHead_mapped :
    (((s.firstHead i r).openBuffer s.env i b).mapInto i b (s.fab.laneReq r)).surf i =
      { ((s.firstHead i r).openBuffer s.env i b).surf i with
        head := .mapped (({ s.surf i with latch := some (s.surf i).desc.newLatch } : Surface).mapHead b r) } := by
  obtain ⟨-, -, hf, -⟩ := State.firstHead_asks (r := r) hr hlane hhead hpend hnf hl
  obtain ⟨x, hx, -⟩ := Surface.chooseFree_some hb.chooseFree
  have := Fabric.surf_opened_mapped (env := s.env) (q := s.fab.laneReq r) (f := s.firstHead i r) (x := x)
    (by rw [State.surf_firstHead]; exact hx) hf
  rw [State.surf_firstHead] at this
  exact this

theorem State.surf_firstHead_opened : ∃ u : Surface, ((s.firstHead i r).openBuffer s.env i b).surf i = u ∧
    u.lane = [s.fab.laneReq r] ∧ u.slot = (s.surf i).slot ∧ u.merges = (s.surf i).merges := by
  obtain ⟨-, -, hf, -⟩ := State.firstHead_asks (r := r) hr hlane hhead hpend hnf hl
  obtain ⟨x, hx, -⟩ := Surface.chooseFree_some hb.chooseFree
  have ho := Fabric.openBuffer_opensAs (f := s.firstHead i r) s.env (x := x) (by rw [State.surf_firstHead]; exact hx) hf
  refine ⟨_, rfl, ?_, ?_, ?_⟩ <;> rw [ho.rest, State.surf_firstHead]


/-- R135: with a source and a stripe of the copy set among those that a DIRECT head touches, the head waits, mapped. -/
theorem State.firstHead_waits (hmode : (s.surf i).desc.mode ≠ 1) (hjob : s.fab.jobOf i b = none)
    (hsrc : ∃ (k : Nat) (y : BufRec), (s.surf i).bufs[k]? = some y ∧ y.content = (s.surf i).frameCounter)
    {k : Nat} (hk : k ∈ directStripes r.kind (directPixels (s.surf i).desc (s.surf i).desc.newLatch ((s.surf i).buf b).base.toNat r))
    (hcopies : (s.surf i).Copies b k) (ht : t.fab = Fabric.runEngine 5 (Fabric.settleSurface s.env (s.firstHead i r) i)) :
    (t.surf i).head = .mapped (({ s.surf i with latch := some (s.surf i).desc.newLatch } : Surface).mapHead b r) ∧
      (t.surf i).slot = (s.surf i).slot ∧ (t.surf i).lane = [s.fab.laneReq r] := by
  have hmapped := State.surf_firstHead_mapped hr hlane hhead hpend hnf hl hb (r := r)
  obtain ⟨u, hu, hul, hus, hum⟩ := State.surf_firstHead_opened hr hlane hhead hpend hnf hl hb (r := r)
  have hsetF : ((s.firstHead i r).surf i).copySet b = (s.surf i).copySet b := State.opensFrom_firstHead.copySet b
  have hset : k ∈ ((s.firstHead i r).surf i).copySet b := by
    rw [hsetF]
    exact Surface.mem_copySet.mpr hcopies
  obtain ⟨c, hc⟩ := Fabric.jobOf_opened (f := s.firstHead i r) s.env (b := b) ((State.jobOf_firstHead b).trans hjob)
    (List.ne_nil_of_mem hset) (by rw [State.surf_firstHead]; exact hsrc)
  rw [hu] at hmapped
  have hun : (((s.firstHead i r).openBuffer s.env i b).mapInto i b (s.fab.laneReq r)).headReady i
      (({ s.surf i with latch := some (s.surf i).desc.newLatch } : Surface).mapHead b r) = false := by
    refine Bool.eq_false_iff.mpr fun h => Fabric.headReady_iff.mp h (.inr ⟨newJob i c b (((s.firstHead i r).surf i).copySet b), k, ?_, ?_, .inl ?_⟩)
    · rw [Surface.mapHead_buf, Fabric.jobOf_mapped]
      exact hc
    · rw [Surface.mapHead_newLatch hmode]
      exact hk
    · rw [newJob_stateOf, if_pos hset]
  have hts := State.surf_firstHead_settled hr hlane hhead hpend hnf hl hb
    (Fabric.laterStages_unready s.env _ (by rw [hmapped]) hun) (by rw [hmapped]; exact hum)
    (by rw [Fabric.headRests, hmapped]; dsimp only; rw [hun]; rfl) ht
  rw [hts, hmapped]
  exact ⟨rfl, hus, hul⟩

/-- R79: a STREAM head with parts is mapped against the new latch and waits for its first grant. -/
theorem State.firstHead_stream {plan : StreamPlan}
    (hp : (({ s.surf i with latch := some (s.surf i).desc.newLatch } : Surface).mapHead b r).plan = .stream plan)
    (hruns : plan.runs ≠ []) (ht : t.fab = Fabric.runEngine 5 (Fabric.settleSurface s.env (s.firstHead i r) i)) :
    (t.surf i).head = .mapped (({ s.surf i with latch := some (s.surf i).desc.newLatch } : Surface).mapHead b r) ∧
      (t.surf i).slot = (s.surf i).slot ∧ (t.surf i).lane = [s.fab.laneReq r] := by
  have hmapped := State.surf_firstHead_mapped hr hlane hhead hpend hnf hl hb (r := r)
  obtain ⟨u, hu, hul, hus, hum⟩ := State.surf_firstHead_opened hr hlane hhead hpend hnf hl hb (r := r)
  rw [hu] at hmapped
  have hts := State.surf_firstHead_settled hr hlane hhead hpend hnf hl hb
    (Fabric.laterStages_stream s.env _ (by rw [hmapped]) hp hruns) (by rw [hmapped]; exact hum)
    (by rw [Fabric.headRests, hmapped]; dsimp only; rw [hp]; simp [hruns]) ht
  rw [hts, hmapped]
  exact ⟨rfl, hus, hul⟩

/-- R65, R66, R72: without carry-forward, copy job and merge the converter handles a DIRECT head's pixels at once. -/
theorem State.firstHead_bound (hmode : (s.surf i).desc.mode ≠ 1) (hcf : (s.surf i).desc.carryForward = false)
    (hjob : s.fab.jobOf i b = none) (hmerge : (s.surf i).mergeOutstanding = false) {run : Run}
    (hrun : (handled r.kind b (s.surf i).slot
      (directPixels (s.surf i).desc (s.surf i).desc.newLatch ((s.surf i).buf b).base.toNat r)).part = some run)
    (ht : t.fab = Fabric.runEngine 5 (Fabric.settleSurface s.env (s.firstHead i r) i)) :
    (t.surf i).head = .bound { buf := b, issued := false, parts := [run], todo := (handled r.kind b (s.surf i).slot
        (directPixels (s.surf i).desc (s.surf i).desc.newLatch ((s.surf i).buf b).base.toNat r)).todo } ∧
      (t.surf i).slot = (handled r.kind b (s.surf i).slot
        (directPixels (s.surf i).desc (s.surf i).desc.newLatch ((s.surf i).buf b).base.toNat r)).slot ∧
      (t.surf i).lane = [s.fab.laneReq r] := by
  have hmapped := State.surf_firstHead_mapped hr hlane hhead hpend hnf hl hb (r := r)
  obtain ⟨u, hu, hul, hus, hum⟩ := State.surf_firstHead_opened hr hlane hhead hpend hnf hl hb (r := r)
  rw [hu] at hmapped
  have hready : (((s.firstHead i r).openBuffer s.env i b).mapInto i b (s.fab.laneReq r)).headReady i
      (({ s.surf i with latch := some (s.surf i).desc.newLatch } : Surface).mapHead b r) = true := by
    refine Fabric.headReady_iff.mpr ?_
    rintro (h | ⟨j, k, hj, -⟩)
    · rw [hmapped, Surface.mergeOutstanding] at h
      dsimp only at h
      rw [hum] at h
      exact absurd (h.symm.trans hmerge) nofun
    · rw [Surface.mapHead_buf, Fabric.jobOf_mapped, Fabric.decideCopy_of_off s.env (by rw [State.surf_firstHead]; exact hcf)] at hj
      exact absurd (hj.symm.trans ((State.jobOf_firstHead b).trans hjob)) nofun
  have hplan := congrArg Mapping.plan (Surface.mapHead_newLatch hmode b r)
  have hlater := Fabric.laterStages_bound s.env (s.fab.laneReq r) (x := handled r.kind b (s.surf i).slot
    (directPixels (s.surf i).desc (s.surf i).desc.newLatch ((s.surf i).buf b).base.toNat r))
    (by rw [hmapped]) hready hplan ?_ hrun
  · have hts := State.surf_firstHead_settled hr hlane hhead hpend hnf hl hb hlater
      (by rw [Fabric.surf_modSurf_same, hmapped]; exact hum) (by rw [Fabric.headRests, Fabric.surf_modSurf_same]; rfl) ht
    rw [hts, Fabric.surf_modSurf_same, hmapped, Surface.mapHead_buf]
    exact ⟨rfl, rfl, hul⟩
  · rw [hmapped, Surface.mapHead_buf]
    dsimp only
    rw [hus]
    rfl

end

end

/-- Settles O48. -/
theorem firstRequestOpens : Obligations.FirstRequestOpens := by
  intro s r i hr hd hc hf hlane hhead hpend hnf
  have hl := Surface.attached_of_producer hc hf
  obtain ⟨ha, hq, hfn, hpc, hh, heng, hcl⟩ := State.firstHead_asks (r := r) hr hlane hhead hpend hnf hl
  have hq' : ((s.firstHead i r).surf i).lane ≠ [] := by rw [hq]; exact List.cons_ne_nil _ _
  obtain ⟨t, t', hexec, htt, hts, ht⟩ := exec_producer_first hr hd hc hf hlane
  have helse : t.tags = s.tags ∧ t.issued = s.issued ∧ s.SameElsewhere t := by
    rw [htt, hts]
    exact ⟨rfl, rfl, rfl, rfl, rfl, rfl, rfl, rfl, rfl, rfl, rfl⟩
  obtain ⟨htags, hissued, hsame⟩ := helse
  have hsurf : t.surf i = t'.surf i := by rw [htt]; rfl
  have hmodel : ∀ b ev, s.CopyDecided t' i b ev → s.CopyDecided t i b ev := fun b ev h => by rw [htt]; exact h
  refine ⟨fun b hb => ?_, fun pre post b x hlists hfree hflag hpres hpre hx hhold => ?_, fun hfree hrec => ?_⟩
  · have hcf := State.chooseFree_firstHead (r := r) hb
    have hfind := State.opened_of_finds ht ha hq' hfn hpc (.inl hh) (.free hcf) fun _ hn => absurd (hcf.symm.trans hn) nofun
    obtain ⟨⟨⟨y, hy, hst, hcont, hwr, htouch, hdam, -⟩, hfilling, -⟩, -⟩ := hfind
    have hcounter := congrArg Surface.frameCounter (State.surf_of_finds ht ha hq' hfn hpc (.inl hh) (.free hcf)
      fun _ hn => absurd (hcf.symm.trans hn) nofun)
    rw [State.surf_firstHead] at hcounter
    have hcopy := State.copyDecided_of_free ht State.opensFrom_firstHead heng rfl ha hq' hfn hpc (.inl hh) hcf
    refine ⟨t, y, hexec, ?_, hst, hcont, hwr, htouch, hdam, ?_, ?_, htags, hissued, hsame, hmodel b _ hcopy, ?_, ?_, ?_⟩
    · rw [hsurf]
      exact hy
    · rw [hsurf]
      exact hfilling
    · rw [hsurf]
      exact hcounter
    · rintro hmode hjob hsrc ⟨k, hk, hcopies⟩
      have := State.firstHead_waits hr hlane hhead hpend hnf hl hb hmode hjob hsrc hk hcopies ht
      rw [Surface.mapHead_newLatch hmode] at this
      rw [hsurf]
      exact this
    · intro hmode hflag hjob hmerge h run hrun
      rw [hsurf]
      exact State.firstHead_bound hr hlane hhead hpend hnf hl hb hmode hflag hjob hmerge hrun ht
    · intro plan hp hruns
      rw [hsurf]
      exact State.firstHead_stream hr hlane hhead hpend hnf hl hb hp hruns ht
  · have hcf : ((s.firstHead i r).surf i).chooseFree = none := by
      rw [State.surf_firstHead]
      exact Surface.chooseFree_none.mpr hfree
    have hrec : ((s.firstHead i r).surf i).reclaimable = some b := by
      rw [State.surf_firstHead]
      exact Surface.reclaimable_of_split hpres hpre ((congrArg BufRec.hold (Surface.buf_of_some hx)).trans hhold)
    have hflag' : ((s.firstHead i r).surf i).desc.reclaim = true := by
      rw [State.surf_firstHead]
      exact hflag
    have hx' : ((s.firstHead i r).surf i).bufs[b]? = some x := by
      rw [State.surf_firstHead]
      exact hx
    have hst : x.st ≠ .closing := by
      have h := (listsSafe_iff.mp hlists).2.2.1 b (by rw [hpres]; simp)
      rw [Surface.states_getElem?, hx] at h
      exact fun hc => absurd ((Option.some.inj h).symm.trans hc) nofun
    have hlt : b < ((s.firstHead i r).surf i).bufs.length := (List.getElem?_eq_some_iff.mp hx').1
    obtain ⟨⟨⟨y, hy, hyst, hycont, -⟩, hfilling, -⟩, hleft⟩ := State.opened_of_finds ht ha hq' hfn hpc (.inl hh)
      (.reclaimed hh hcf hflag' hrec) fun _ _ _ _ => hlt
    have hcopy := State.copyDecided_of_reclaimed ht State.opensFrom_firstHead heng rfl ha hq' hfn hpc (.inl hh) hh hcf hflag' hrec hx' hst
    rw [Fabric.events_dropReady _ _ _ hx', State.surf_firstHead] at hcopy
    rw [if_pos hcf, State.surf_firstHead] at hleft
    have hnot : b ∉ pre := fun hm => by
      have := hpre b hm
      rw [Surface.buf_of_some hx, hhold] at this
      cases this
    refine ⟨t, y, hexec, by rw [hsurf]; exact hy, hyst, hycont, ?_, by rw [hsurf]; exact hfilling, hmodel b _ hcopy, htags, hissued, hsame⟩
    rw [hsurf, hleft]
    dsimp only
    rw [hpres, erase_of_split hnot]
  · have hcf : ((s.firstHead i r).surf i).chooseFree = none := by
      rw [State.surf_firstHead]
      exact Surface.chooseFree_none.mpr hfree
    have hnone : ((s.firstHead i r).surf i).desc.reclaim = true → ((s.firstHead i r).surf i).reclaimable = none := by
      rw [State.surf_firstHead]
      intro h
      rcases hrec with h' | h'
      · exact absurd (h.symm.trans h') nofun
      · exact Surface.reclaimable_eq_none h'
    have hwait := Fabric.settleSurface_waits s.env ha hq hfn (.inl hh) hcf fun _ => hnone
    have hw : (s.firstHead i r).modSurf i (fun su => { su with head := .waiting }) = (s.fab.offering r).joined i r
        { s.surf i with lane := [s.fab.laneReq r], head := .waiting } := Fabric.modSurf_joined _ i r _ _
    refine exec_producer hr hd hc hf (by rw [hlane]; decide) (f := s.fab.joined i r
      { s.surf i with lane := [s.fab.laneReq r], head := .waiting }) ?_ (Fabric.rests_iff.mp hr).1
    rw [hlane]
    refine (Fabric.joined_settle hr s.env).trans ?_
    change Fabric.runEngine 5 (Fabric.settleSurface s.env (s.firstHead i r) i) = _
    have hrests : ((s.fab.offering r).joined i r { s.surf i with lane := [s.fab.laneReq r], head := .waiting }).surfaceRests i = true := by
      refine Fabric.joined_surfaceRests_of_head hr rfl (.inr ?_)
      rw [Fabric.headRests, Fabric.surf_joined]
      exact Option.isNone_iff_eq_none.mpr (Surface.chooseFree_none.mpr hfree)
    rw [hwait, hw, Fabric.presentMerge_of_rests hrests]
    exact Fabric.runEngine_of_rests _ (Fabric.joined_engineRests (v := { s.surf i with lane := [s.fab.laneReq r], head := .waiting }) hr rfl) 5

end Sys2Proof.Machine

/-! # A deferred job of another surface

The statements about DISCARD FILLING and about the end of a chunk do not ask the deferred list of a surface to hold that surface's jobs. A
job of another surface that joins the copy queue may let the head of that surface go, whose pending close then closes a frame. -/

namespace Sys2Proof.Machine

set_option Elab.async false

/-- A copy job without stripes. -/
def foreignJob (k : Fin 8) (b : Nat) : CopyJob := { surface := k, source := 0, target := b, stripes := [] }

/-- The surface that discards its fill; the job in its deferred list is of surface 1. -/
def foreignSurface : Surface :=
  { Surface.empty with
    life := .attached
    bufs := [{ BufRec.fresh 0 0 with st := .filling }]
    deferred := [foreignJob 1 1] }

/-- Surface 1: its head waits for a stripe of its own deferred job, and a close is pending. -/
def foreignWaiting : Surface :=
  { Surface.empty with
    life := .attached
    bufs := [{ BufRec.fresh 0 0 with st := .filling }]
    closePending := true
    lane := [straysRequest]
    head := .mapped { buf := 1, stripes := [0], plan := .direct [] }
    deferred := [{ surface := 1, source := 0, target := 1, stripes := [{ stripe := 0, st := .pending, chunks := 0, fault := false }] }] }

/-- The part with those two surfaces, its link ready for a message. -/
def foreignState : State :=
  { State.reset with
    link := { Link.reset with waitHigh := false }
    fab := { Fabric.reset with
      surfaces := Vector.ofFn fun k => if k = 0 then foreignSurface else if k = 1 then foreignWaiting else Surface.empty
      copy := { Fabric.reset.copy with queue := [foreignJob 0 0] } } }

/-- The records in the event queue after a command. -/
def eventsAfter : Host.Outcome State Fault Refusal → Nat
  | .next t => t.fab.events.length
  | _ => 0

set_option maxRecDepth 4000 in
theorem foreign_rest : foreignState.AtRest := by decide

theorem foreign_takes : foreignState.Takes 0x31 [0, 0] := by decide

theorem foreign_buffersSafe : BuffersSafe foreignSurface := by
  rw [buffersSafe_iff]
  decide

theorem foreign_listsSafe : ListsSafe foreignSurface := by
  rw [listsSafe_iff]
  decide

set_option maxRecDepth 4000 in
theorem foreign_discard : eventsAfter (exec (.discardFilling [0, 0]) foreignState) = 1 := by decide

/-- Refutes O35: the discard cancels the fill's copy job, the deferred job of surface 1 joins the queue, and surface 1 closes a frame, whose
FRAME_READY stands in the event queue though the discarding surface has no request and no CLOSING buffer. -/
theorem not_discardFillingAbandons : ¬ Obligations.DiscardFillingAbandons := by
  unfold Obligations.DiscardFillingAbandons
  intro h
  obtain ⟨t, u, ht, -, -, -, -, -, -, hevents, -⟩ := h foreignState 0 0 0 _ foreign_takes rfl rfl rfl foreign_rest
    foreign_buffersSafe foreign_listsSafe rfl rfl
  obtain ⟨hempty, -⟩ := hevents nofun
  have hlen := foreign_discard
  rw [ht, eventsAfter, (hempty rfl).2] at hlen
  cases hlen

/-! ## The same at the end of a copy job -/

/-- A chunk whose write is in flight. -/
def foreignChunk : Chunk :=
  { id := 0, surface := 0, source := 0, target := 1, stripe := 0, srcAddr := 0, tgtAddr := 0, len := 1, phase := .writing, data := [],
    orphan := false }

/-- The stripe whose last chunk that is. -/
def foreignStripe : StripeRec := { stripe := 0, st := .copying, chunks := 1, fault := false }

/-- The surface whose copy job ends with the chunk, with the job of surface 1 in its deferred list. -/
def foreignTarget : Surface :=
  { Surface.empty with
    life := .attached
    bufs := [{ BufRec.fresh 0 0 with st := .shown, hold := true }, { BufRec.fresh 1 0 with st := .filling, copyWrites := 1 }]
    deferred := [foreignJob 1 1] }

/-- The tag of the chunk's write. -/
def foreignTag : TagEntry :=
  { TagEntry.cleared with st := .issued, kind := .copyWrite, surface := some 0, buffer := some 1, route := .chunk 0 }

/-- The part with that surface, surface 1 that waits, and the tag. -/
def foreignCopying : State :=
  { State.reset with
    tags := State.reset.tags.set 0 foreignTag
    fab := { Fabric.reset with
      surfaces := Vector.ofFn fun k => if k = 0 then foreignTarget else if k = 1 then foreignWaiting else Surface.empty
      copy := { Fabric.reset.copy with
        queue := [{ foreignJob 0 1 with stripes := [foreignStripe] }]
        slots := [foreignChunk] } } }

set_option maxRecDepth 4000 in
theorem foreignCopying_rest : foreignCopying.AtRest := by decide

set_option maxRecDepth 4000 in
theorem foreignCopying_response : eventsAfter (exec (.downstreamResponse 0 .okay []) foreignCopying) = 1 := by decide

/-- Refutes O55: with the chunk's write the copy job ends, the deferred job of surface 1 joins the queue, and surface 1 closes a frame, whose
FRAME_READY stands in the event queue though nothing has failed and the target stays FILLING. -/
theorem not_copyReadHeld : ¬ Obligations.CopyReadHeld := by
  unfold Obligations.CopyReadHeld
  intro h
  obtain ⟨t, g, ht, -, -, -, -, -, hevents, -⟩ := h.2.1 foreignCopying 0 foreignChunk _ _ _ foreignStripe [] _ .okay
    foreignCopying_rest rfl rfl rfl rfl (.inl ⟨rfl, rfl⟩) (.inl ⟨[], rfl, rfl⟩) rfl rfl rfl rfl (by decide)
    (.inl ⟨rfl, nofun, nofun⟩) rfl rfl rfl rfl (by decide) (List.mem_singleton_self _) rfl rfl
  have hnone : t.fab.events = [] := by
    rw [hevents]
    rfl
  have hlen := foreignCopying_response
  rw [ht, eventsAfter, hnone] at hlen
  cases hlen

end Sys2Proof.Machine

/-! # Merges interrupted (R71) -/

namespace Sys2Proof.Machine

set_option Elab.async false

/-- What an interruption by `p` does to one merge. -/
def Surface.interruptOne (p : Merge → Bool) (su : Surface) (m : Merge) : Surface :=
  if p m then
    match m.interrupt with
    | none => su.endMerge m
    | some m' => su.modMerge m.id (fun _ => m')
  else su

/-- Whether an interruption by `p` drops a merge of buffer `k`. -/
def Merge.droppedBy (p : Merge → Bool) (k : Nat) (m : Merge) : Bool := p m && m.interrupt.isNone && decide (m.buf = k)

/-- What an interruption by `p` leaves of a merge. -/
def Merge.leftBy (p : Merge → Bool) (m : Merge) : Option Merge := if p m then m.interrupt else some m

theorem Merge.interrupt_id {m m' : Merge} (h : m.interrupt = some m') : m'.id = m.id ∧ m'.buf = m.buf := by
  unfold Merge.interrupt at h
  split at h
  · cases h
  · split at h
    · cases h
    · obtain rfl := Option.some.inj h
      exact ⟨rfl, rfl⟩
  · obtain rfl := Option.some.inj h
    exact ⟨rfl, rfl⟩

/-- A merge that an interruption has left is written already or makes no write. -/
theorem Merge.interrupt_ends {m m' : Merge} (h : m.interrupt = some m') : m'.st = .writing ∨ m'.noWrite = true := by
  unfold Merge.interrupt at h
  split at h
  · cases h
  · split at h
    · cases h
    · obtain rfl := Option.some.inj h
      exact .inr rfl
  · next hs =>
    obtain rfl := Option.some.inj h
    exact .inl hs

section
variable (p : Merge → Bool)

/-- One interruption by its three outcomes. -/
theorem Surface.interruptOne_cases (su : Surface) (m : Merge) :
    p m = false ∧ su.interruptOne p m = su ∨
    p m = true ∧ m.interrupt = none ∧ su.interruptOne p m = su.endMerge m ∨
    ∃ m', p m = true ∧ m.interrupt = some m' ∧ su.interruptOne p m = su.modMerge m.id (fun _ => m') := by
  unfold Surface.interruptOne
  cases hp : p m with
  | false => exact .inl ⟨rfl, rfl⟩
  | true =>
    cases hi : m.interrupt with
    | none => exact .inr (.inl ⟨rfl, rfl, rfl⟩)
    | some m' => exact .inr (.inr ⟨m', rfl, rfl, rfl⟩)

theorem Surface.interruptOne_rest (su : Surface) (m : Merge) : su.interruptOne p m =
    { su with bufs := (su.interruptOne p m).bufs, merges := (su.interruptOne p m).merges } := by
  rcases su.interruptOne_cases p m with ⟨-, h⟩ | ⟨-, -, h⟩ | ⟨m', -, -, h⟩ <;> rw [h] <;> rfl

theorem Surface.interruptOne_bufs (su : Surface) (m : Merge) (k : Nat) : (su.interruptOne p m).bufs[k]? =
    (su.bufs[k]?).map (fun x => { x with merges := x.merges - (if m.droppedBy p k = true then 1 else 0) }) := by
  have same : (su.bufs[k]?).map (fun x : BufRec => { x with merges := x.merges - 0 }) = su.bufs[k]? := by simp
  unfold Merge.droppedBy
  rcases su.interruptOne_cases p m with ⟨hp, h⟩ | ⟨hp, hi, h⟩ | ⟨m', hp, hi, h⟩
  · rw [h, hp]
    exact same.symm
  · rw [h, hp, hi, Surface.endMerge, Surface.bufs_modBuf]
    by_cases hk : m.buf = k
    · rw [if_pos hk, hk]
      simp
    · rw [if_neg hk]
      simp [hk]
  · rw [h, hp, hi]
    exact same.symm

theorem Surface.foldl_interrupt_rest (l : List Merge) (su : Surface) : l.foldl (Surface.interruptOne p) su =
    { su with bufs := (l.foldl (Surface.interruptOne p) su).bufs, merges := (l.foldl (Surface.interruptOne p) su).merges } := by
  induction l generalizing su with
  | nil => rfl
  | cons m l ih =>
    rw [List.foldl_cons, ih, su.interruptOne_rest p m]

theorem Surface.foldl_interrupt_bufs (l : List Merge) (su : Surface) (k : Nat) : (l.foldl (Surface.interruptOne p) su).bufs[k]? =
    (su.bufs[k]?).map (fun x => { x with merges := x.merges - l.countP (Merge.droppedBy p k) }) := by
  induction l generalizing su with
  | nil => simp
  | cons m l ih =>
    rw [List.foldl_cons, ih, su.interruptOne_bufs p m k, Option.map_map, List.countP_cons]
    congr 1
    funext x
    simp only [Function.comp_apply]
    rw [Nat.sub_sub, Nat.add_comm]

/-- Every merge left is one that the interruption left, or one that it did not reach. -/
theorem Surface.foldl_interrupt_mem (l : List Merge) (su : Surface) {m : Merge} (h : m ∈ (l.foldl (Surface.interruptOne p) su).merges) :
    (∃ m0 ∈ l, p m0 = true ∧ m0.interrupt = some m) ∨ m ∈ su.merges ∧ ∀ m0 ∈ l, p m0 = true → m0.id ≠ m.id := by
  induction l generalizing su with
  | nil => exact .inr ⟨h, fun _ hm => (by cases hm)⟩
  | cons x l ih =>
    rw [List.foldl_cons] at h
    rcases ih _ h with ⟨m0, hm0, hp0, hi0⟩ | ⟨hm, hno⟩
    · exact .inl ⟨m0, List.mem_cons_of_mem _ hm0, hp0, hi0⟩
    have reach : (p x = true → x.id ≠ m.id) → ∀ m0 ∈ x :: l, p m0 = true → m0.id ≠ m.id := fun hx m0 hm0 hp0 => by
      rcases List.mem_cons.mp hm0 with rfl | hm0
      · exact hx hp0
      · exact hno m0 hm0 hp0
    rcases su.interruptOne_cases p x with ⟨hp, hs⟩ | ⟨hp, hi, hs⟩ | ⟨m', hp, hi, hs⟩ <;> rw [hs] at hm
    · exact .inr ⟨hm, reach fun h => absurd (hp.symm.trans h) nofun⟩
    · rw [Surface.endMerge] at hm
      obtain ⟨hm, hne⟩ := List.mem_filter.mp hm
      exact .inr ⟨hm, reach fun _ he => by simp [he] at hne⟩
    · rw [Surface.modMerge] at hm
      obtain ⟨m1, hm1, he⟩ := List.mem_map.mp hm
      by_cases hid : m1.id = x.id
      · rw [if_pos hid] at he
        exact .inl ⟨x, List.mem_cons_self, hp, by rw [hi, he]⟩
      · rw [if_neg hid] at he
        subst he
        exact .inr ⟨hm1, reach fun _ => Ne.symm hid⟩

/-- With each merge in the list once, the interruption takes them one by one. -/
theorem Surface.foldl_interrupt_nodup (l done : List Merge) (su : Surface) (hs : su.merges = done ++ l)
    (hn : (su.merges.map (fun m => m.id)).Nodup) : (l.foldl (Surface.interruptOne p) su).merges = done ++ l.filterMap (Merge.leftBy p) := by
  induction l generalizing su done with
  | nil => simpa using hs
  | cons x l ih =>
    rw [hs, List.map_append, List.map_cons, List.nodup_append] at hn
    obtain ⟨hnd, hnx, hdisj⟩ := hn
    rw [List.nodup_cons] at hnx
    have hdone : ∀ m ∈ done, m.id ≠ x.id := fun m hm => hdisj m.id (List.mem_map_of_mem hm) x.id List.mem_cons_self
    have hl : ∀ m ∈ l, m.id ≠ x.id := fun m hm he => hnx.1 (he ▸ List.mem_map_of_mem (f := fun m : Merge => m.id) hm)
    have hrest : ((done ++ l).map (fun m => m.id)).Nodup := by
      rw [List.map_append, List.nodup_append]
      exact ⟨hnd, hnx.2, fun a ha b hb => hdisj a ha b (List.mem_cons_of_mem _ hb)⟩
    have hone : ∀ y : Merge, y.id = x.id → ((done ++ y :: l).map (fun m => m.id)).Nodup := fun y hy => by
      rw [List.map_append, List.map_cons, List.nodup_append, hy]
      exact ⟨hnd, List.nodup_cons.mpr hnx, hdisj⟩
    rw [List.foldl_cons, List.filterMap_cons, Merge.leftBy]
    rcases su.interruptOne_cases p x with ⟨hp, he⟩ | ⟨hp, hi, he⟩ | ⟨m', hp, hi, he⟩
    · rw [he, hp, ih (done ++ [x]) su (by simpa using hs) (by rw [hs]; exact hone x rfl)]
      simp
    · have hm : (su.endMerge x).merges = done ++ l := by
        rw [Surface.endMerge]
        change su.merges.filter _ = _
        rw [hs, List.filter_append, List.filter_cons, List.filter_eq_self.mpr fun m hm => by simpa using hdone m hm,
          List.filter_eq_self.mpr fun m hm => by simpa using hl m hm]
        simp
      rw [he, hp, hi, ih done _ hm (by rw [hm]; exact hrest)]
      rfl
    · have hm : (su.modMerge x.id (fun _ => m')).merges = done ++ m' :: l := by
        rw [Surface.modMerge]
        change su.merges.map _ = _
        rw [hs, List.map_append, List.map_cons, if_pos rfl]
        have keep : ∀ ms : List Merge, (∀ m ∈ ms, m.id ≠ x.id) → ms.map (fun m => if m.id = x.id then m' else m) = ms := fun ms hms =>
          (List.map_congr_left fun m hm => if_neg (hms m hm)).trans (List.map_id _)
        rw [keep done hdone, keep l hl]
      rw [he, hp, hi, ih (done ++ [m']) _ (by simpa using hm) (by rw [hm]; exact hone m' (Merge.interrupt_id hi).1)]
      simp

end

/-! ## The interruption as a whole -/

section
variable (su : Surface) (p : Merge → Bool)

theorem Surface.interruptMerges_rest :
    su.interruptMerges p = { su with bufs := (su.interruptMerges p).bufs, merges := (su.interruptMerges p).merges } :=
  Surface.foldl_interrupt_rest p su.merges su

theorem Surface.interruptMerges_bufs (k : Nat) : (su.interruptMerges p).bufs[k]? =
    (su.bufs[k]?).map (fun x => { x with merges := x.merges - su.merges.countP (Merge.droppedBy p k) }) :=
  Surface.foldl_interrupt_bufs p su.merges su k

theorem Surface.interruptMerges_mem {m : Merge} (h : m ∈ (su.interruptMerges p).merges) :
    (∃ m0 ∈ su.merges, p m0 = true ∧ m0.interrupt = some m) ∨ m ∈ su.merges ∧ p m = false := by
  rcases Surface.foldl_interrupt_mem p su.merges su h with h | ⟨hm, hno⟩
  · exact .inl h
  · exact .inr ⟨hm, Bool.eq_false_iff.mpr fun hp => hno m hm hp rfl⟩

theorem Surface.interruptMerges_nodup (hn : (su.merges.map (fun m => m.id)).Nodup) :
    (su.interruptMerges p).merges = su.merges.filterMap (Merge.leftBy p) :=
  (Surface.foldl_interrupt_nodup p su.merges [] su rfl hn).trans (List.nil_append _)

end

end Sys2Proof.Machine

/-! # What the heads of other surfaces wait for, when a copy job is cancelled (R145, R148, R149) -/

namespace Sys2Proof.Machine

set_option Elab.async false

/-! ## The names of the jobs -/

/-- What a job is: its surface, its source and its target. -/
def CopyJob.name (j : CopyJob) : Fin 8 × Nat × Nat := (j.surface, j.source, j.target)

theorem CopyJob.isFor_name {j j' : CopyJob} (h : j'.name = j.name) (i : Fin 8) (b : Nat) : j'.isFor i b = j.isFor i b := by
  unfold CopyJob.isFor
  rw [show j'.surface = j.surface from congrArg Prod.fst h, show j'.target = j.target from congrArg (fun n => n.2.2) h]

/-! ## What the heads of the other surfaces wait for -/

/-- A head that touches stripe `x` waits for it in the job (R145). -/
def CopyJob.Awaited (j : CopyJob) (x : Nat) : Prop := j.stateOf x = some .pending ∨ j.stateOf x = some .copying

/-- Every job of surface `k` in `f` is one in `g` that lets no more heads go. -/
def Fabric.KeepsWaits (f g : Fabric) (k : Fin 8) : Prop :=
  ∀ c j, f.jobOf k c = some j → ∃ j', g.jobOf k c = some j' ∧ ∀ x, j.Awaited x → j'.Awaited x

theorem Fabric.KeepsWaits.refl (f : Fabric) (k : Fin 8) : f.KeepsWaits f k := fun _ j h => ⟨j, h, fun _ hx => hx⟩

theorem Fabric.KeepsWaits.trans {f g h : Fabric} {k : Fin 8} (a : f.KeepsWaits g k) (b : g.KeepsWaits h k) : f.KeepsWaits h k := by
  intro c j hj
  obtain ⟨j', hj', h1⟩ := a c j hj
  obtain ⟨j'', hj'', h2⟩ := b c j' hj'
  exact ⟨j'', hj'', fun x hx => h2 x (h1 x hx)⟩

theorem Fabric.keepsWaits_of_eq {f g : Fabric} {k : Fin 8} (h : ∀ c, g.jobOf k c = f.jobOf k c) : f.KeepsWaits g k :=
  fun c j hj => ⟨j, (h c).trans hj, fun _ hx => hx⟩

theorem stateOf_modStripe (j : CopyJob) (k x : Nat) (g : StripeRec → StripeRec) (hg : ∀ r, (g r).stripe = r.stripe) :
    (j.modStripe k g).stateOf x =
      (j.stripes.find? (fun r => r.stripe == x)).map (fun r => if r.stripe = k then (g r).st else r.st) := by
  have hp : ∀ r : StripeRec, ((if r.stripe = k then g r else r).stripe == x) = (r.stripe == x) := fun r => by
    split
    · rw [hg]
    · rfl
  unfold CopyJob.stateOf CopyJob.modStripe
  dsimp only
  rw [List.find?_map, Option.map_map]
  simp only [Function.comp_def, hp]
  congr 1
  funext r
  split <;> rfl

theorem Fabric.jobOf_modJob (f : Fabric) (i : Fin 8) (b : Nat) {g : CopyJob → CopyJob} (hg : ∀ j, (g j).name = j.name) (k : Fin 8) (c : Nat) :
    (f.modJob i b g).jobOf k c = (f.jobOf k c).map (fun j => if j.isFor i b then g j else j) := by
  have hl : (f.modJob i b g).copy.queue ++ ((f.modJob i b g).surf k).deferred =
      (f.copy.queue.map (fun j => if j.isFor i b then g j else j)) ++
        (if i = k then (f.surf k).deferred.map (fun j => if j.isFor i b then g j else j) else (f.surf k).deferred) := by
    unfold Fabric.modJob
    rw [Fabric.surf_modSurf]
    split
    case isTrue h =>
      subst h
      rfl
    case isFalse => rfl
  have hp : ∀ j : CopyJob, (if j.isFor i b then g j else j).isFor k c = j.isFor k c := fun j => by
    split
    · exact CopyJob.isFor_name (hg j) k c
    · rfl
  unfold Fabric.jobOf
  rw [hl, List.find?_append, List.find?_append, List.find?_map]
  simp only [Function.comp_def, hp]
  by_cases hk : i = k
  · rw [if_pos hk, List.find?_map]
    simp only [Function.comp_def, hp]
    cases f.copy.queue.find? (fun j => j.isFor k c) <;> rfl
  · rw [if_neg hk]
    cases f.copy.queue.find? (fun j => j.isFor k c) with
    | some j => rfl
    | none =>
      simp only [Option.map_none, Option.none_or]
      cases hd : (f.surf k).deferred.find? (fun j => j.isFor k c) with
      | none => rfl
      | some j =>
        have hjk := (CopyJob.isFor_iff.mp (List.find?_some (p := fun j : CopyJob => j.isFor k c) hd)).1
        rw [Option.map_some, if_neg fun h => hk ((CopyJob.isFor_iff.mp h).1.symm.trans hjk)]

theorem Fabric.keepsWaits_makeCurrent (f : Fabric) (j : CopyJob) (x : Nat) (k : Fin 8) : f.KeepsWaits (f.makeCurrent j x) k := by
  intro c q hq
  refine ⟨_, (Fabric.jobOf_modJob f j.surface j.target (g := fun q => q.modStripe x (fun r => { r with st := .copying }))
    (fun _ => rfl) k c).trans (congrArg (Option.map _) hq), fun y hy => ?_⟩
  dsimp only
  split
  · unfold CopyJob.Awaited at hy ⊢
    rw [stateOf_modStripe q x y (fun r => { r with st := .copying }) fun _ => rfl]
    unfold CopyJob.stateOf at hy
    cases hf : q.stripes.find? (fun r => r.stripe == y) with
    | none =>
      rw [hf] at hy
      rcases hy with h | h <;> cases h
    | some r =>
      rw [hf] at hy
      rw [Option.map_some] at hy ⊢
      dsimp only
      split
      · exact .inr rfl
      · exact hy
  · exact hy

theorem Fabric.keepsWaits_select (f : Fabric) (k : Fin 8) : f.KeepsWaits f.select k := by
  rcases f.select_cases with h | ⟨-, j, -, x, h⟩ <;> rw [h]
  · exact .refl f k
  · exact f.keepsWaits_makeCurrent j x k

theorem Fabric.keepsWaits_dropCurrent (f : Fabric) (i : Fin 8) (b : Nat) (k : Fin 8) : f.KeepsWaits (f.dropCurrent i b) k := by
  unfold Fabric.dropCurrent
  split
  · split
    · exact Fabric.KeepsWaits.trans (g := { f with copy := { f.copy with current := none } }) (Fabric.keepsWaits_of_eq fun _ => rfl)
        (Fabric.keepsWaits_select _ k)
    · exact .refl f k
  · exact .refl f k

/-- A surface that rests rests on where its jobs let no more heads go. -/
theorem Fabric.surfaceRests_of_waits {f g : Fabric} {k : Fin 8} (hs : g.surf k = { f.surf k with deferred := (g.surf k).deferred })
    (hw : f.KeepsWaits g k) (h : f.surfaceRests k = true) : g.surfaceRests k = true := by
  have hout : (g.surf k).mergeOutstanding = (f.surf k).mergeOutstanding := by rw [hs]; rfl
  have hclaim : (g.surf k).mergeClaim = (f.surf k).mergeClaim := by rw [hs]; rfl
  have hfree : (g.surf k).chooseFree.isNone = (f.surf k).chooseFree.isNone := Surface.chooseFree_isNone (by rw [hs]; rfl)
  have ready : ∀ m, g.headReady k m = true → f.headReady k m = true := fun m hm => by
    refine Fabric.headReady_iff.mpr fun hno => Fabric.headReady_iff.mp hm ?_
    rcases hno with ho | ⟨j, x, hj, hx, ha⟩
    · exact .inl (hout.trans ho)
    · obtain ⟨j', hj', hk⟩ := hw m.buf j hj
      exact .inr ⟨j', x, hj', hx, hk x ha⟩
  have heads : f.headRests k = true → g.headRests k = true := fun hr => by
    have hhead : (g.surf k).head = (f.surf k).head := by rw [hs]
    unfold Fabric.headRests at *
    rw [hhead, hout, hfree]
    cases hh : (f.surf k).head with
    | fresh =>
      rw [hh] at hr
      exact hr
    | waiting =>
      rw [hh] at hr
      exact hr
    | bound bd =>
      rw [hh] at hr
      exact hr
    | mapped m =>
      rw [hh] at hr
      dsimp only at hr ⊢
      rw [Bool.or_eq_true, Bool.not_eq_true'] at hr ⊢
      exact hr.imp_left fun h => Bool.eq_false_iff.mpr fun hg => Bool.eq_false_iff.mp h (ready m hg)
  unfold Fabric.surfaceRests at *
  rw [hclaim, show (g.surf k).lane = (f.surf k).lane by rw [hs], show (g.surf k).life = (f.surf k).life by rw [hs]]
  rw [Bool.and_eq_true, Bool.or_eq_true] at *
  exact ⟨h.1.imp_right heads, h.2⟩

end Sys2Proof.Machine

/-! # The tests of the buffers of an ATTACHED surface (R99, R106) -/

namespace Sys2Proof.Machine

set_option Elab.async false

/-- Every buffer tested for release (R106). -/
def Surface.released (su : Surface) : Surface := { su with bufs := su.bufs.map BufRec.release }

theorem Surface.released_buf {su : Surface} {k : Nat} {x : BufRec} (hx : su.bufs[k]? = some x) :
    su.released.bufs[k]? = some x.tested := by
  rw [Surface.released, List.getElem?_map, hx]
  exact congrArg some (BufRec.release_eq x)

theorem Fabric.promoteReady_life (env : Env) (i : Fin 8) (l : List Nat) (f : Fabric) :
    ((Fabric.promoteReady env i l f).surf i).life = (f.surf i).life := by
  induction l generalizing f with
  | nil => rfl
  | cons b bs ih =>
    unfold Fabric.promoteReady
    split
    · rw [ih, Fabric.surf_makeReady]
      rfl
    · rfl

section
variable (f : Fabric) (env : Env) (i : Fin 8)

theorem Fabric.surf_released : (f.modSurf i Surface.released).surf i = (f.surf i).released := f.surf_modSurf_same i _

/-- The tests of an ATTACHED surface end no drain. -/
theorem Fabric.bufferTests_attached (hl : (f.surf i).life = .attached) :
    f.bufferTests env i = Fabric.promoteReady env i (f.surf i).closing (f.modSurf i Surface.released) := by
  have hclosing : ((f.modSurf i Surface.released).surf i).closing = (f.surf i).closing := by rw [Fabric.surf_released]; rfl
  have hlife : ((Fabric.promoteReady env i (f.surf i).closing (f.modSurf i Surface.released)).surf i).life = .attached := by
    rw [Fabric.promoteReady_life, Fabric.surf_released]
    exact hl
  unfold Fabric.bufferTests
  change (Fabric.promoteReady env i ((f.modSurf i Surface.released).surf i).closing (f.modSurf i Surface.released)).drainEnd env i = _
  rw [hclosing]
  unfold Fabric.drainEnd
  dsimp only
  rw [hlife]
  exact if_neg (by simp)

/-- With no CLOSING buffer, or the first in close order not ready, the tests only release buffers. -/
theorem Fabric.bufferTests_still (hl : (f.surf i).life = .attached)
    (hc : ∀ c cs, (f.surf i).closing = c :: cs → (f.modSurf i Surface.released).readyTest i c = false) :
    f.bufferTests env i = f.modSurf i Surface.released := by
  rw [f.bufferTests_attached env i hl]
  cases h : (f.surf i).closing with
  | nil => rfl
  | cons c cs =>
    rw [Fabric.promoteReady, hc c cs h]
    rfl

end

/-- The buffers that become READY are of the list; nothing else of the surface's buffers changes. -/
theorem Fabric.promoteReady_bufs (env : Env) (i : Fin 8) (l : List Nat) (f : Fabric) {k : Nat} {x : BufRec}
    (hx : (f.surf i).bufs[k]? = some x) : ∃ y, ((Fabric.promoteReady env i l f).surf i).bufs[k]? = some y ∧
      (y = x ∨ k ∈ l ∧ y = { x with st := .ready }) := by
  induction l generalizing f x with
  | nil => exact ⟨x, hx, .inl rfl⟩
  | cons b bs ih =>
    unfold Fabric.promoteReady
    split
    · have hmade : ((f.makeReady env i b).surf i).bufs[k]? = some (if b = k then { x with st := .ready } else x) := by
        rw [Fabric.surf_makeReady, Surface.bufs_modBuf]
        dsimp only
        rw [hx]
        split <;> rfl
      obtain ⟨y, hy, hk⟩ := ih _ hmade
      refine ⟨y, hy, ?_⟩
      by_cases hb : b = k
      · rw [if_pos hb] at hk
        refine .inr ⟨hb ▸ List.mem_cons_self, ?_⟩
        rcases hk with h | ⟨-, h⟩
        · exact h
        · exact h
      · rw [if_neg hb] at hk
        exact hk.imp_right fun ⟨hm, h⟩ => ⟨List.mem_cons_of_mem _ hm, h⟩
    · exact ⟨x, hx, .inl rfl⟩

theorem Fabric.promoteReady_length (env : Env) (i : Fin 8) (l : List Nat) (f : Fabric) :
    ((Fabric.promoteReady env i l f).surf i).bufs.length = (f.surf i).bufs.length := by
  induction l generalizing f with
  | nil => rfl
  | cons b bs ih =>
    unfold Fabric.promoteReady
    split
    · rw [ih, Fabric.surf_makeReady]
      exact List.length_modify ..
    · rfl

/-- A buffer that is not in close order is as its test for release leaves it. -/
theorem Fabric.bufferTests_bufs (f : Fabric) (env : Env) (i : Fin 8) (hl : (f.surf i).life = .attached) {k : Nat} {x : BufRec}
    (hx : (f.surf i).bufs[k]? = some x) : ∃ y, ((f.bufferTests env i).surf i).bufs[k]? = some y ∧
      (y = x.tested ∨ k ∈ (f.surf i).closing ∧ y = { x.tested with st := .ready }) := by
  rw [f.bufferTests_attached env i hl]
  exact Fabric.promoteReady_bufs env i _ _ (by rw [Fabric.surf_released]; exact Surface.released_buf hx)

end Sys2Proof.Machine

/-! # The response records while a lane moves on (R12, R17) -/

namespace Sys2Proof.Machine

set_option Elab.async false

/-- The records and the responses are as they were. -/
def Fabric.SameBooks (f g : Fabric) : Prop := g.records = f.records ∧ g.sent = f.sent

theorem Fabric.SameBooks.refl (f : Fabric) : f.SameBooks f := ⟨rfl, rfl⟩

theorem Fabric.SameBooks.trans {f g h : Fabric} (a : f.SameBooks g) (b : g.SameBooks h) : f.SameBooks h :=
  ⟨b.1.trans a.1, b.2.trans a.2⟩

section
variable (f : Fabric) (env : Env) (i : Fin 8)

theorem Fabric.sameBooks_addJob (j : CopyJob) : f.SameBooks (f.addJob j) := by
  rcases f.addJob_cases j with ⟨-, h⟩ | ⟨-, h⟩ <;> rw [h] <;> exact ⟨rfl, rfl⟩

theorem Fabric.sameBooks_openBuffer (b : Nat) : f.SameBooks (f.openBuffer env i b) := by
  refine Fabric.SameBooks.trans (g := f.decideCopy env i b) ?_ ⟨rfl, rfl⟩
  rcases f.decideCopy_cases env i b with ⟨-, h⟩ | ⟨-, -, h⟩ | ⟨-, k, y, -, -, -, h⟩ <;> rw [h]
  · exact .refl f
  · exact ⟨rfl, rfl⟩
  · exact Fabric.SameBooks.trans (g := f.modBuf i k (fun r => { r with hold := true })) ⟨rfl, rfl⟩ (Fabric.sameBooks_addJob _ _)

theorem Fabric.sameBooks_askBuffer (q : LaneReq) : f.SameBooks (f.askBuffer env i q) := by
  unfold Fabric.askBuffer
  split
  · exact ⟨rfl, rfl⟩
  · unfold Fabric.obtainBuffer
    dsimp only
    cases (f.surf i).chooseFree with
    | some b => exact (f.sameBooks_openBuffer env i b).trans (h := (f.openBuffer env i b).mapInto i b q) ⟨rfl, rfl⟩
    | none =>
      dsimp only
      by_cases hr : (f.surf i).desc.reclaim = true
      · rw [if_pos hr]
        cases (f.surf i).reclaimable with
        | some b =>
          dsimp only
          rw [Fabric.reclaimBuffer_eq]
          exact Fabric.SameBooks.trans (g := f.dropReady env i b) ⟨rfl, rfl⟩
            ((Fabric.sameBooks_openBuffer _ env i b).trans (h := ((f.dropReady env i b).openBuffer env i b).mapInto i b q) ⟨rfl, rfl⟩)
        | none => exact ⟨rfl, rfl⟩
      · rw [if_neg hr]
        exact ⟨rfl, rfl⟩

theorem Fabric.sameBooks_askStage (q : LaneReq) : f.SameBooks (f.askStage env i q) := by
  unfold Fabric.askStage
  split
  · exact f.sameBooks_askBuffer env i q
  · unfold Fabric.serveWaiting
    split
    · next b _ => exact (f.sameBooks_openBuffer env i b).trans (h := (f.openBuffer env i b).mapInto i b q) ⟨rfl, rfl⟩
    · exact .refl f
  · exact .refl f

theorem Fabric.sameBooks_bindStage : f.SameBooks (f.bindStage i) := by
  unfold Fabric.bindStage
  split
  · unfold Fabric.bindHead
    split
    · split
      · exact ⟨rfl, rfl⟩
      · split
        · exact ⟨rfl, rfl⟩
        · exact .refl f
    · exact .refl f
  · exact .refl f

theorem Fabric.sameBooks_handleStage (q : LaneReq) : f.SameBooks (f.handleStage i q) := by
  unfold Fabric.handleStage
  split
  · rw [Fabric.handleHead_eq]
    split
    · exact .refl f
    · split <;> exact ⟨rfl, rfl⟩
  · exact .refl f

theorem Fabric.sameBooks_promoteReady (l : List Nat) (f : Fabric) : f.SameBooks (Fabric.promoteReady env i l f) := by
  induction l generalizing f with
  | nil => exact .refl f
  | cons b bs ih =>
    unfold Fabric.promoteReady
    split
    · exact Fabric.SameBooks.trans (g := f.makeReady env i b) ⟨rfl, rfl⟩ (ih _)
    · exact .refl f

theorem Fabric.sameBooks_bufferTests : f.SameBooks (f.bufferTests env i) := by
  refine Fabric.SameBooks.trans (g := f.modSurf i Surface.released) ⟨rfl, rfl⟩
    ((Fabric.sameBooks_promoteReady env i ((f.modSurf i Surface.released).surf i).closing _).trans ?_)
  change Fabric.SameBooks _ (Fabric.drainEnd _ env i)
  unfold Fabric.drainEnd
  dsimp only
  split
  · split <;> exact ⟨rfl, rfl⟩
  · exact .refl _

theorem Fabric.sameBooks_applyClose (b : Nat) : f.SameBooks (f.applyClose env i b) := by
  refine Fabric.SameBooks.trans (g := (f.modSurf i (fun su => su.closeSteps b)).spillSlot i) ?_ (Fabric.sameBooks_bufferTests _ env i)
  unfold Fabric.spillSlot
  split <;> exact ⟨rfl, rfl⟩

end

/-! ## The record of a request that is not in the lane -/

/-- The record named `id` is as it was, and no response has been taken back. -/
structure Fabric.BooksPast (id : Nat) (f g : Fabric) : Prop where
  record : g.records.find? (fun x => x.id == id) = f.records.find? (fun x => x.id == id)
  sent : f.sent <+: g.sent

theorem Fabric.BooksPast.refl (id : Nat) (f : Fabric) : Fabric.BooksPast id f f := ⟨rfl, List.prefix_rfl⟩

theorem find?_modRecord_other {l : List RespRecord} {id id' : Nat} {g : RespRecord → RespRecord} (hg : ∀ r, (g r).id = r.id)
    (hne : id' ≠ id) : (l.map (fun r => if r.id = id' then g r else r)).find? (fun x => x.id == id) =
      l.find? (fun x => x.id == id) := by
  induction l with
  | nil => rfl
  | cons r l ih =>
    rw [List.map_cons, List.find?_cons, List.find?_cons, ih]
    by_cases h : r.id = id'
    · rw [if_pos h, hg, h]
      rw [beq_eq_false_iff_ne.mpr hne]
    · rw [if_neg h]

theorem Fabric.booksPast_closeIfDone (f : Fabric) {id id' : Nat} (hne : id' ≠ id) : Fabric.BooksPast id f (f.closeIfDone id') := by
  unfold Fabric.closeIfDone
  split
  · split
    · refine ⟨?_, List.prefix_append _ _⟩
      change (f.records.filter _).find? _ = _
      rw [List.find?_filter]
      refine congrArg (fun p => List.find? p f.records) ?_
      funext r
      by_cases h : r.id = id
      · simp [h, Ne.symm hne]
      · simp [h]
    · exact .refl id f
  · exact .refl id f

end Sys2Proof.Machine

/-! # What settling leaves of surfaces that are not ATTACHED and of requests answered already -/

namespace Sys2Proof.Machine

set_option Elab.async false

/-! ## Surfaces that are not ATTACHED -/

/-- The surface is as it was but for its deferred jobs and the stamps of its merges. -/
structure Surface.Unmoved (su su' : Surface) : Prop where
  rest : su' = { su with deferred := su'.deferred, merges := su'.merges } := by rfl
  merges : su'.merges.map Merge.unstamped = su.merges.map Merge.unstamped := by rfl

theorem Surface.Unmoved.refl (su : Surface) : su.Unmoved su := {}

theorem Surface.Unmoved.trans {a b c : Surface} (h : a.Unmoved b) (k : b.Unmoved c) : a.Unmoved c where
  rest := by rw [k.rest, h.rest]
  merges := k.merges.trans h.merges

theorem Surface.Unmoved.life {a b : Surface} (h : a.Unmoved b) : b.life = a.life := by rw [h.rest]

/-- A merge left has the phase and the mark of one before. -/
theorem Surface.Unmoved.merge_phase {a b : Surface} (h : a.Unmoved b) {P : MergeState → Bool → Prop} :
    (∀ m ∈ b.merges, P m.st m.noWrite) ↔ ∀ m ∈ a.merges, P m.st m.noWrite := by
  have along : ∀ l : List Merge, (∀ m ∈ l, P m.st m.noWrite) ↔ ∀ m ∈ l.map Merge.unstamped, P m.st m.noWrite := fun l => by
    rw [List.forall_mem_map]
    exact Iff.rfl
  rw [along b.merges, h.merges, ← along]

/-! ## Responses sent and records that wait, marked -/

/-- Responses sent stay sent, and a marked record that waits with a result that is not OKAY stays as it is. -/
structure Fabric.KeepsAnswers (f g : Fabric) : Prop where
  sent : ∀ x ∈ f.sent, x ∈ g.sent
  record : ∀ id r, f.records.find? (fun x => x.id == id) = some r → r.issued ≠ 0 → r.mark = true → r.worst ≠ .okay →
    g.records.find? (fun x => x.id == id) = some r

theorem Fabric.KeepsAnswers.refl (f : Fabric) : f.KeepsAnswers f := ⟨fun _ h => h, fun _ _ h _ _ _ => h⟩

theorem Fabric.KeepsAnswers.trans {f g h : Fabric} (a : f.KeepsAnswers g) (b : g.KeepsAnswers h) : f.KeepsAnswers h where
  sent x hx := b.sent x (a.sent x hx)
  record id r hr h1 h2 h3 := b.record id r (a.record id r hr h1 h2 h3) h1 h2 h3

theorem Fabric.SameBooks.answers {f g : Fabric} (h : f.SameBooks g) : f.KeepsAnswers g where
  sent x hx := h.2.symm ▸ hx
  record id r hr _ _ _ := by rw [h.1]; exact hr

theorem Worst.join_aborted {w : Worst} (h : w ≠ .okay) : w.join .aborted = w := by
  cases w <;> first | exact absurd rfl h | rfl

section
variable (f : Fabric) (id : Nat)

/-- A record changed only where it may change. -/
theorem Fabric.keepsAnswers_modRecord {g : RespRecord → RespRecord} (hid : ∀ r, (g r).id = r.id)
    (hg : ∀ r, r.mark = true → r.worst ≠ .okay → g r = r) : f.KeepsAnswers (f.modRecord id g) where
  sent _ h := h
  record id' r hr h1 h2 h3 := by
    by_cases he : id = id'
    · subst he
      rw [Fabric.find?_modRecord f id hid, hr, Option.map_some, hg r h2 h3]
    · rw [Fabric.modRecord, find?_modRecord_other hid he]
      exact hr

theorem Fabric.keepsAnswers_closeIfDone : f.KeepsAnswers (f.closeIfDone id) where
  sent x hx := by
    unfold Fabric.closeIfDone
    split
    · split
      · exact List.mem_append_left _ hx
      · exact hx
    · exact hx
  record id' r hr h1 _ _ := by
    by_cases he : id = id'
    · subst he
      unfold Fabric.closeIfDone
      rw [hr]
      dsimp only
      rw [if_neg fun h => h1 h.1]
      exact hr
    · exact (Fabric.booksPast_closeIfDone f he).record.trans hr

theorem Fabric.keepsAnswers_markDone : f.KeepsAnswers (f.markDone id) :=
  (f.keepsAnswers_modRecord id (g := fun r => { r with mark := true }) (fun _ => rfl) fun r hm _ => by cases r; cases hm; rfl).trans
    (Fabric.keepsAnswers_closeIfDone _ id)

theorem Fabric.keepsAnswers_dropRest : f.KeepsAnswers (f.dropRest id) :=
  (f.keepsAnswers_modRecord id (g := fun r => { r with worst := r.worst.join .aborted, mark := true }) (fun _ => rfl)
    fun r hm hw => by rw [Worst.join_aborted hw]; cases r; cases hm; rfl).trans (Fabric.keepsAnswers_closeIfDone _ id)

end

/-- The request named `id`, as its record stands in `f`, has been answered ABORTED in `g`, or waits there with its record
marked (R16, R18). -/
def Fabric.Aborts (f g : Fabric) (id : Nat) : Prop :=
  ∀ r, f.records.find? (fun x => x.id == id) = some r →
    (r.issued = 0 → r.worst = .okay → ({ tag := r.tag, code := .aborted, data := [] } : UpResponse) ∈ g.sent) ∧
    (r.issued ≠ 0 → g.records.find? (fun x => x.id == id) = some { r with mark := true, worst := r.worst.join .aborted })

theorem Worst.join_aborted_eq (w : Worst) : w.join .aborted = if w = .okay then .aborted else w := by cases w <;> rfl

theorem State.aborted_iff {s t : State} {id : Nat} : s.Aborted t id ↔ s.fab.Aborts t.fab id := by
  unfold State.Aborted Fabric.Aborts
  simp only [Worst.join_aborted_eq]

theorem Fabric.Aborts.keep {f g h : Fabric} {id : Nat} (a : f.Aborts g id) (k : g.KeepsAnswers h) : f.Aborts h id := by
  intro r hr
  obtain ⟨h1, h2⟩ := a r hr
  refine ⟨fun hi hw => k.sent _ (h1 hi hw), fun hi => k.record id _ (h2 hi) hi rfl ?_⟩
  rw [Worst.join_aborted_eq]
  split
  · nofun
  · assumption

/-- What an earlier drop left of the record is dropped no further. -/
theorem Fabric.aborts_dropRest (f : Fabric) (id : Nat) : f.Aborts (f.dropRest id) id := by
  intro r hr
  have hf : (f.modRecord id (fun r => { r with worst := r.worst.join .aborted, mark := true })).records.find? (fun x => x.id == id) =
      some { r with mark := true, worst := r.worst.join .aborted } := by
    rw [Fabric.find?_modRecord f id (g := fun r => { r with worst := r.worst.join .aborted, mark := true }) (fun _ => rfl), hr]
    rfl
  unfold Fabric.dropRest Fabric.closeIfDone
  rw [hf]
  dsimp only
  constructor
  · intro h0 hw
    rw [if_pos ⟨h0, rfl⟩]
    refine List.mem_append_right _ (List.mem_singleton.mpr ?_)
    rw [RespRecord.answer, hw]
    simp [Worst.join, Worst.rank, Worst.code]
  · intro h0
    rw [if_neg fun h => h0 h.1]
    exact hf

/-! ## Settling, past what has ended -/

/-- What has ended stays: surfaces that are not ATTACHED, responses sent, and records that wait with the mark. -/
structure Fabric.Past (f g : Fabric) : Prop extends Fabric.KeepsAnswers f g where
  surf : ∀ i, (f.surf i).life ≠ .attached → (f.surf i).Unmoved (g.surf i)

theorem Fabric.Past.refl (f : Fabric) : f.Past f := { Fabric.KeepsAnswers.refl f with surf := fun _ _ => .refl _ }

theorem Fabric.Past.trans {f g h : Fabric} (a : f.Past g) (b : g.Past h) : f.Past h :=
  { a.toKeepsAnswers.trans b.toKeepsAnswers with
    surf := fun i hi => (a.surf i hi).trans (b.surf i ((a.surf i hi).life ▸ hi)) }

/-- Only the books have changed. -/
theorem Fabric.KeepsAnswers.past {f g : Fabric} (h : f.KeepsAnswers g) (hs : ∀ i, g.surf i = f.surf i) : f.Past g :=
  { h with surf := fun i _ => by rw [hs i]; exact .refl _ }

/-- Nothing has ended and nothing of an ended surface has changed. -/
theorem Fabric.SameBooks.pastEnded {f g : Fabric} (h : f.SameBooks g) (hs : ∀ i, (f.surf i).life ≠ .attached → g.surf i = f.surf i) :
    f.Past g :=
  { h.answers with surf := fun i hi => by rw [hs i hi]; exact .refl _ }

theorem Fabric.surf_markDone' (f : Fabric) (id : Nat) (i : Fin 8) : (f.markDone id).surf i = f.surf i := by
  unfold Fabric.markDone Fabric.closeIfDone
  split
  · split <;> rfl
  · rfl

section
variable (f : Fabric) (env : Env) (i : Fin 8)

theorem Fabric.keepsAnswers_leaveStage (q : LaneReq) : f.KeepsAnswers (f.leaveStage env i q) := by
  unfold Fabric.leaveStage
  split
  · split
    · unfold Fabric.leaveLane
      dsimp only
      have hmark : f.KeepsAnswers ((f.modSurf i (fun su => { su with lane := su.lane.tail, head := .fresh })).markDone q.id) :=
        Fabric.KeepsAnswers.trans (g := f.modSurf i (fun su => { su with lane := su.lane.tail, head := .fresh }))
          (Fabric.SameBooks.answers ⟨rfl, rfl⟩) (Fabric.keepsAnswers_markDone _ _)
      split
      · split
        · exact hmark.trans (Fabric.sameBooks_applyClose _ env i _).answers
        · exact hmark.trans (Fabric.SameBooks.answers ⟨rfl, rfl⟩)
      · exact hmark
    · exact .refl f
  · exact .refl f

theorem Fabric.keepsAnswers_stepHead (q : LaneReq) : f.KeepsAnswers (f.stepHead env i q) := by
  rw [Fabric.stepHead_eq]
  exact (f.sameBooks_askStage env i q).answers.trans ((Fabric.sameBooks_bindStage _ i).answers.trans
    ((Fabric.sameBooks_handleStage _ i q).answers.trans (Fabric.keepsAnswers_leaveStage _ env i q)))

theorem Fabric.keepsAnswers_runLane (n : Nat) (f : Fabric) : f.KeepsAnswers (Fabric.runLane env i n f) := by
  induction n generalizing f with
  | zero => exact .refl f
  | succ n ih =>
    unfold Fabric.runLane
    split
    · split
      · exact (f.keepsAnswers_stepHead env i _).trans (ih _)
      · exact .refl f
    · exact .refl f

theorem Fabric.runLane_unattached (n : Nat) (h : (f.surf i).life ≠ .attached) : Fabric.runLane env i n f = f := by
  cases n with
  | zero => rfl
  | succ n =>
    unfold Fabric.runLane
    rw [if_neg h]

theorem Fabric.past_settleSurface : f.Past (Fabric.settleSurface env f i) := by
  have hb := f.beside_settleSurface env i
  unfold Fabric.settleSurface at hb ⊢
  obtain ⟨-, -, hr, hs, hrest, hm⟩ := (Fabric.runLane env i ((f.surf i).lane.length + 1) f).presentMerge_spec i
  refine { (f.keepsAnswers_runLane env i _).trans (Fabric.SameBooks.answers ⟨hr, hs⟩) with surf := fun k hk => ?_ }
  by_cases e : k = i
  · subst e
    rw [f.runLane_unattached env k _ hk] at hrest hm ⊢
    exact ⟨hrest.trans (by rw [hrest]), hm⟩
  · rw [hb.surf k e]
    exact .refl _

theorem Fabric.past_leaveScans (n : Nat) (f : Fabric) : f.Past (Fabric.leaveScans n f) := by
  induction n generalizing f with
  | zero => exact .refl f
  | succ n ih =>
    unfold Fabric.leaveScans
    split
    · next e es _ =>
      split
      · refine Fabric.Past.trans ?_ (ih _)
        refine Fabric.KeepsAnswers.past (Fabric.KeepsAnswers.trans (g := { f with scanQ := es })
          (Fabric.SameBooks.answers ⟨rfl, rfl⟩) (Fabric.keepsAnswers_markDone _ _)) fun k => ?_
        rw [Fabric.surf_markDone']
        rfl
      · exact .refl f
    · exact .refl f

theorem Fabric.past_runEngine (n : Nat) : f.Past (Fabric.runEngine n f) := by
  have h := Fabric.sameButJobs_runEngine n f
  refine { Fabric.SameBooks.answers (f := f) (g := Fabric.runEngine n f) ⟨by rw [h.rest], by rw [h.rest]⟩ with surf := fun k _ => ?_ }
  have hk := h.surf k
  exact ⟨by rw [hk], by rw [hk]⟩

theorem Fabric.past_settle : f.Past (f.settle env) := by
  unfold Fabric.settle
  have fold : ∀ (l : List (Fin 8)) (g : Fabric), g.Past (l.foldl (Fabric.settleSurface env) g) := fun l => by
    induction l with
    | nil => exact fun g => .refl g
    | cons k l ih => exact fun g => (g.past_settleSurface env k).trans (ih _)
  exact (fold allSurfaces f).trans ((Fabric.past_leaveScans _ _).trans (Fabric.past_runEngine _ 5))

/-! ## Acceptance -/

theorem Fabric.past_openRecord (r : UpRequest) (data : List Byte) : f.Past (f.openRecord r data) where
  sent _ h := h
  record id x hx _ _ _ := by
    rw [Fabric.openRecord, List.find?_append, hx]
    rfl
  surf _ _ := .refl _

theorem Fabric.Past.opens {f g : Fabric} (h : f.Past g) (r : UpRequest) (data : List Byte) : f.Past (g.openRecord r data) :=
  h.trans (g.past_openRecord r data)

theorem Fabric.past_accept (r : UpRequest) : f.Past (f.accept env r) := by
  have answer : ∀ code, f.Past (f.answerAtOnce r code) := fun code =>
    { sent := fun _ h => List.mem_append_left _ h, record := fun _ _ h _ _ _ => h, surf := fun _ _ => .refl _ }
  unfold Fabric.accept
  split
  · exact answer _
  · exact answer _
  · unfold Fabric.acceptPass
    refine Fabric.Past.opens ?_ r _
    exact Fabric.SameBooks.pastEnded ⟨rfl, rfl⟩ fun _ _ => rfl
  · next k hc =>
    unfold Fabric.acceptScan
    dsimp only
    refine Fabric.Past.opens ?_ r _
    refine Fabric.SameBooks.pastEnded ⟨?_, ?_⟩ fun j hj => ?_
    · split <;> rfl
    · split <;> rfl
    · split
      · next b hb =>
        have hk : (f.surf k).life = .attached := by
          split at hb
          · cases hb
          · unfold Surface.scanTarget at hb
            split at hb
            · assumption
            · cases hb
        exact f.surf_modSurf_other (fun su => su.modBuf b (fun q =>
          { q with scanReads := q.scanReads + ((f.surf k).scanParts (r.addr.toNat - (f.surf k).desc.apStart) r.len).length }))
          (show k ≠ j from fun e => hj (e ▸ hk))
      · rfl
  · next k hc =>
    unfold Fabric.acceptProducer
    split
    · exact answer _
    · split
      · exact answer _
      · next hf _ =>
        refine Fabric.Past.opens ?_ r _
        refine Fabric.SameBooks.pastEnded ⟨rfl, rfl⟩ fun j hj => ?_
        have hk : (f.surf k).life = .attached := by
          rcases Lifecycle.live_iff.mp (Fabric.classify_live hc) with h | h
          · exact h
          · exact absurd (show (f.surf k).refusesProducer r = true by rw [Surface.refusesProducer, if_pos h]) hf
        exact f.surf_modSurf_other _ fun e => hj (e ▸ hk)

theorem Fabric.past_pump (rs : List UpRequest) (f : Fabric) : f.Past (Fabric.pump env rs f) := by
  induction rs generalizing f with
  | nil => exact Fabric.SameBooks.pastEnded ⟨rfl, rfl⟩ fun _ _ => rfl
  | cons r rs ih =>
    unfold Fabric.pump
    split
    · exact ((f.past_accept env r).trans (Fabric.past_settle _ env)).trans (ih _)
    · exact Fabric.SameBooks.pastEnded ⟨rfl, rfl⟩ fun _ _ => rfl

/-- What the part does at once leaves what has ended. -/
theorem Fabric.past_finish : f.Past (f.finish env) := (f.past_settle env).trans (Fabric.past_pump env _ _)

end

end Sys2Proof.Machine

/-! # DETACH: what it leaves of the surface, of its requests and of the rest (R32, R16) -/

namespace Sys2Proof.Machine

set_option Elab.async false

/-! ## Requests dropped -/

/-- Some requests have been dropped: each record is as it was, or its request has been answered ABORTED or waits marked. -/
structure Fabric.Drops (f g : Fabric) : Prop extends Fabric.KeepsAnswers f g where
  each : ∀ id, g.records.find? (fun x => x.id == id) = f.records.find? (fun x => x.id == id) ∨ f.Aborts g id

theorem Fabric.Aborts.of_record {f g h : Fabric} {id : Nat}
    (hr : g.records.find? (fun x => x.id == id) = f.records.find? (fun x => x.id == id)) (a : g.Aborts h id) : f.Aborts h id :=
  fun r hf => a r (hr.trans hf)

theorem Fabric.Drops.aborts {f g h : Fabric} {id : Nat} (d : f.Drops g) (k : g.KeepsAnswers h) (a : g.Aborts h id) :
    f.Aborts h id :=
  (d.each id).elim (fun hr => a.of_record hr) fun h => h.keep k

theorem Fabric.SameBooks.drops {f g : Fabric} (h : f.SameBooks g) : f.Drops g :=
  { h.answers with each := fun _ => .inl (by rw [h.1]) }

theorem Fabric.Drops.refl (f : Fabric) : f.Drops f := (Fabric.SameBooks.refl f).drops

theorem Fabric.Drops.trans {f g h : Fabric} (a : f.Drops g) (b : g.Drops h) : f.Drops h :=
  { a.toKeepsAnswers.trans b.toKeepsAnswers with
    each := fun id => (b.each id).elim
      (fun hr => (a.each id).imp hr.trans fun x => x.keep b.toKeepsAnswers)
      fun x => .inr (a.aborts b.toKeepsAnswers x) }

theorem Fabric.drops_dropRest (f : Fabric) (id : Nat) : f.Drops (f.dropRest id) :=
  { f.keepsAnswers_dropRest id with
    each := fun id' => by
      by_cases he : id = id'
      · exact .inr (he ▸ f.aborts_dropRest id)
      · exact .inl ((Fabric.booksPast_closeIfDone _ he).record.trans (find?_modRecord_other (fun _ => rfl) he)) }

/-- Each request of a list is dropped. -/
theorem Fabric.foldl_drops {α : Type} {op : Fabric → α → Fabric} {id : α → Nat}
    (hop : ∀ g a, ∃ g' : Fabric, g.SameBooks g' ∧ op g a = g'.dropRest (id a)) (l : List α) (f : Fabric) :
    f.Drops (l.foldl op f) ∧ ∀ a ∈ l, f.Aborts (l.foldl op f) (id a) := by
  induction l generalizing f with
  | nil => exact ⟨.refl f, fun _ h => absurd h List.not_mem_nil⟩
  | cons x l ih =>
    obtain ⟨g, hg, he⟩ := hop f x
    have h1 : f.Drops (op f x) := he ▸ hg.drops.trans (g.drops_dropRest (id x))
    have hx : f.Aborts (op f x) (id x) := he ▸ (g.aborts_dropRest (id x)).of_record (by rw [hg.1])
    obtain ⟨h2, hl⟩ := ih (op f x)
    refine ⟨h1.trans h2, fun a ha => ?_⟩
    rcases List.mem_cons.mp ha with rfl | ha
    · exact hx.keep h2.toKeepsAnswers
    · exact h1.aborts h2.toKeepsAnswers (hl a ha)

/-! ## What each stage leaves -/

/-- A stage of DETACH of surface `i`: it drops requests, and of the rest it changes surface `i`, its queued scanout reads, the
copy engine, and of other surfaces the stripes of deferred jobs. -/
structure Fabric.Detaches (i : Fin 8) (f g : Fabric) : Prop extends Fabric.Drops f g where
  offered : g.offered = f.offered
  passQ : g.passQ = f.passQ
  scanQ : g.scanQ.Sublist f.scanQ
  events : g.events = f.events
  others : ∀ k, k ≠ i → g.surf k = { f.surf k with deferred := (g.surf k).deferred } ∧ f.KeepsWaits g k

theorem Fabric.Detaches.trans {i : Fin 8} {f g h : Fabric} (a : Fabric.Detaches i f g) (b : Fabric.Detaches i g h) :
    Fabric.Detaches i f h :=
  { a.toDrops.trans b.toDrops with
    offered := b.offered.trans a.offered
    passQ := b.passQ.trans a.passQ
    scanQ := b.scanQ.trans a.scanQ
    events := b.events.trans a.events
    others := fun k hk => by
      obtain ⟨s1, w1⟩ := a.others k hk
      obtain ⟨s2, w2⟩ := b.others k hk
      exact ⟨by rw [s2, s1], w1.trans w2⟩ }

theorem Fabric.Drops.detaches {i : Fin 8} {f g : Fabric} (h : f.Drops g) (hb : Fabric.Beside i f g) (hc : g.copy = f.copy)
    (he : g.events = f.events) : Fabric.Detaches i f g :=
  { h with
    offered := hb.offered
    passQ := hb.passQ
    scanQ := hb.scanQ ▸ List.Sublist.refl _
    events := he
    others := fun k hk => ⟨by rw [hb.surf k hk], Fabric.keepsWaits_of_eq fun c => hb.jobOf hk c⟩ }

section
variable (f : Fabric) (i : Fin 8)

theorem Fabric.detaches_modSurf (g : Surface → Surface) : Fabric.Detaches i f (f.modSurf i g) :=
  Fabric.Drops.detaches (Fabric.SameBooks.drops (f := f) (g := f.modSurf i g) ⟨rfl, rfl⟩) (f.beside_modSurf i g) rfl rfl

theorem Fabric.surf_dropRests (ids : List LaneReq) (f : Fabric) (k : Fin 8) :
    (ids.foldl (fun g q => g.dropRest q.id) f).surf k = f.surf k := by
  induction ids generalizing f with
  | nil => rfl
  | cons q ids ih => rw [List.foldl_cons, ih, Fabric.surf_dropRest]

theorem Fabric.dropRests_rest (l : List LaneReq) (f : Fabric) : l.foldl (fun g q => g.dropRest q.id) f =
    { f with records := (l.foldl (fun g q => g.dropRest q.id) f).records, sent := (l.foldl (fun g q => g.dropRest q.id) f).sent } := by
  induction l generalizing f with
  | nil => rfl
  | cons q l ih => rw [List.foldl_cons, ih, f.dropRest_rest q.id]

theorem Fabric.detaches_dropLane : Fabric.Detaches i f (f.dropLane i) ∧ (∀ q ∈ (f.surf i).lane, f.Aborts (f.dropLane i) q.id) ∧
    (f.dropLane i).surf i = { f.surf i with lane := [], head := .fresh } := by
  obtain ⟨hd, ha⟩ := Fabric.foldl_drops (op := fun g (q : LaneReq) => g.dropRest q.id) (id := fun q => q.id)
    (fun g a => ⟨g, .refl g, rfl⟩) (f.surf i).lane f
  have hrest := Fabric.dropRests_rest (f.surf i).lane f
  have hsurf := Fabric.surf_dropRests (f.surf i).lane f i
  unfold Fabric.dropLane
  generalize (f.surf i).lane.foldl (fun g q => g.dropRest q.id) f = g at hd ha hrest hsurf
  have hbeside : Fabric.Beside i f g := by
    rw [hrest]
    exact f.beside_books i _ _ _ _ _
  have h1 : Fabric.Detaches i f g := hd.detaches hbeside (by rw [hrest]) (by rw [hrest])
  have h2 := g.detaches_modSurf i (fun su => { su with lane := [], head := .fresh })
  exact ⟨h1.trans h2, fun q hq => (ha q hq).keep h2.toKeepsAnswers, by rw [Fabric.surf_modSurf_same, hsurf]⟩

/-! ### Scanout reads dropped -/

/-- The parts of the scanout reads of a list that buffer `b` of surface `i` counts. -/
def scanPartsOf (i : Fin 8) (b : Nat) (l : List ScanEntry) : Nat :=
  ((l.filter (fun e => decide (e.surface = i) && decide (e.target = some b))).map (fun e => e.parts.length)).sum

theorem Fabric.surf_dropScanParts (e : ScanEntry) (k : Fin 8) : (f.dropScanParts e).surf k =
    { f.surf k with bufs := ((f.dropScanParts e).surf k).bufs } ∧
    ∀ b : Nat, ((f.dropScanParts e).surf k).bufs[b]? =
      ((f.surf k).bufs[b]?).map (fun r : BufRec => { r with scanReads := r.scanReads - scanPartsOf k b [e] }) := by
  have same : ∀ b : Nat, scanPartsOf k b [e] = 0 → (f.surf k).bufs[b]? =
      ((f.surf k).bufs[b]?).map (fun r : BufRec => { r with scanReads := r.scanReads - scanPartsOf k b [e] }) := fun b h0 => by
    rw [h0]
    exact Option.map_id'.symm
  unfold Fabric.dropScanParts
  split
  · next c hc =>
    unfold Fabric.modBuf
    rw [Fabric.surf_modSurf]
    split
    · next hk =>
      refine ⟨rfl, fun b => ?_⟩
      rw [Surface.bufs_modBuf]
      split
      · next hb =>
        refine congrArg (fun g => Option.map g _) (funext fun r => ?_)
        simp [scanPartsOf, hk, hc, hb]
      · next hb => exact same b (by simp [scanPartsOf, hc, hb])
    · next hk => exact ⟨rfl, fun b => same b (by simp [scanPartsOf, hk])⟩
  · next hc => exact ⟨rfl, fun b => same b (by simp [scanPartsOf, hc])⟩

theorem Fabric.dropScans_rest (l : List ScanEntry) (f : Fabric) : l.foldl Fabric.dropScan f =
    { f with records := (l.foldl Fabric.dropScan f).records, sent := (l.foldl Fabric.dropScan f).sent,
             surfaces := (l.foldl Fabric.dropScan f).surfaces } := by
  induction l generalizing f with
  | nil => rfl
  | cons e l ih =>
    rw [List.foldl_cons, ih, Fabric.dropScan, Fabric.dropRest_rest]
    unfold Fabric.dropScanParts
    split <;> rfl

theorem Fabric.surf_dropScans (l : List ScanEntry) (f : Fabric) (k : Fin 8) : (l.foldl Fabric.dropScan f).surf k =
    { f.surf k with bufs := ((l.foldl Fabric.dropScan f).surf k).bufs } ∧
    ∀ b : Nat, ((l.foldl Fabric.dropScan f).surf k).bufs[b]? =
      ((f.surf k).bufs[b]?).map (fun r : BufRec => { r with scanReads := r.scanReads - scanPartsOf k b l }) := by
  induction l generalizing f with
  | nil => exact ⟨rfl, fun b => Option.map_id'.symm⟩
  | cons e l ih =>
    obtain ⟨h1, h2⟩ := f.surf_dropScanParts e k
    obtain ⟨h3, h4⟩ := ih (f.dropScan e)
    have hs : (f.dropScan e).surf k = (f.dropScanParts e).surf k := Fabric.surf_dropRest _ _ _
    refine ⟨?_, fun b => ?_⟩
    · rw [List.foldl_cons, h3, hs, h1]
    · rw [List.foldl_cons, h4, hs, h2, Option.map_map]
      refine congrArg (fun g => Option.map g _) (funext fun r => ?_)
      have hadd : scanPartsOf k b (e :: l) = scanPartsOf k b [e] + scanPartsOf k b l := by
        unfold scanPartsOf
        rw [show e :: l = [e] ++ l from rfl, List.filter_append, List.map_append, List.sum_append]
      rw [hadd]
      simp only [Function.comp_apply]
      rw [Nat.sub_sub]

theorem Fabric.dropScansOf_spec (p : ScanEntry → Bool) : f.Drops (f.dropScansOf p) ∧
    (∀ e ∈ f.scanQ, p e = true → f.Aborts (f.dropScansOf p) e.id) ∧
    f.dropScansOf p = { f with records := (f.dropScansOf p).records, sent := (f.dropScansOf p).sent,
                               surfaces := (f.dropScansOf p).surfaces, scanQ := f.scanQ.filter (fun e => !p e) } ∧
    ∀ k, (f.dropScansOf p).surf k = { f.surf k with bufs := ((f.dropScansOf p).surf k).bufs } ∧
      ∀ b : Nat, ((f.dropScansOf p).surf k).bufs[b]? =
        ((f.surf k).bufs[b]?).map (fun r : BufRec => { r with scanReads := r.scanReads - scanPartsOf k b (f.scanQ.filter p) }) := by
  obtain ⟨hd, ha⟩ := Fabric.foldl_drops (op := Fabric.dropScan) (id := fun e => e.id)
    (fun g a => ⟨g.dropScanParts a, by unfold Fabric.dropScanParts; split <;> exact ⟨rfl, rfl⟩, rfl⟩) (f.scanQ.filter p) f
  have hrest := Fabric.dropScans_rest (f.scanQ.filter p) f
  have hsurf := fun k => Fabric.surf_dropScans (f.scanQ.filter p) f k
  unfold Fabric.dropScansOf
  generalize (f.scanQ.filter p).foldl Fabric.dropScan f = g at hd ha hrest hsurf
  refine ⟨hd.trans (Fabric.SameBooks.drops ⟨rfl, rfl⟩), fun e he hp => ha e (List.mem_filter.mpr ⟨he, hp⟩), ?_, hsurf⟩
  dsimp only
  rw [hrest]

theorem Surface.eq_of_bufs {a b : Surface} (h : b = { a with bufs := b.bufs }) (hb : ∀ k : Nat, b.bufs[k]? = a.bufs[k]?) : b = a := by
  rw [h, List.ext_getElem? hb]

/-- The scanout reads of surface `i` are dropped. -/
theorem Fabric.detaches_dropScansOf : Fabric.Detaches i f (f.dropScansOf (fun e => decide (e.surface = i))) := by
  obtain ⟨hd, -, hrest, hsurf⟩ := f.dropScansOf_spec (fun e => decide (e.surface = i))
  generalize f.dropScansOf (fun e => decide (e.surface = i)) = g at hd hrest hsurf
  have same : ∀ k, k ≠ i → g.surf k = f.surf k := fun k hk => by
    obtain ⟨h1, h2⟩ := hsurf k
    refine Surface.eq_of_bufs h1 fun b => ?_
    have h0 : scanPartsOf k b (f.scanQ.filter (fun e => decide (e.surface = i))) = 0 := by
      unfold scanPartsOf
      rw [List.filter_filter, List.filter_eq_nil_iff.mpr fun e _ h => ?_]
      · rfl
      · simp only [Bool.and_eq_true, decide_eq_true_eq] at h
        exact hk (h.1.1.symm.trans h.2)
    rw [h2, h0]
    exact Option.map_id'
  exact { hd with
    offered := by rw [hrest]
    passQ := by rw [hrest]
    scanQ := by rw [hrest]; exact List.filter_sublist
    events := by rw [hrest]
    others := fun k hk => ⟨by rw [same k hk], Fabric.keepsWaits_of_eq fun c => by
      unfold Fabric.jobOf
      rw [same k hk, hrest]⟩ }

/-! ### Copy jobs cancelled -/

theorem Fabric.jobOf_removeJob_other (b : Nat) {k : Fin 8} (hk : k ≠ i) (c : Nat) : (f.removeJob i b).jobOf k c = f.jobOf k c := by
  have hq : (f.removeJob i b).copy.queue = f.copy.queue.filter (fun j => !j.isFor i b) := rfl
  have hd : ((f.removeJob i b).surf k).deferred = (f.surf k).deferred := by
    unfold Fabric.removeJob
    rw [Fabric.surf_modSurf_other _ _ (Ne.symm hk)]
    rfl
  unfold Fabric.jobOf
  rw [hq, hd, List.find?_append, List.find?_append, List.find?_filter]
  refine congrArg (fun p => Option.or (List.find? p f.copy.queue) _) (funext fun j => ?_)
  cases hj : j.isFor k c with
  | false => simp
  | true =>
    have : j.isFor i b = false := Bool.eq_false_iff.mpr fun h =>
      hk ((CopyJob.isFor_iff.mp hj).1.symm.trans (CopyJob.isFor_iff.mp h).1)
    simp [this]

theorem Fabric.SameButJobs.detaches {f g : Fabric} (h : f.SameButJobs g) (hw : ∀ k, k ≠ i → f.KeepsWaits g k) :
    Fabric.Detaches i f g :=
  { Fabric.SameBooks.drops (f := f) (g := g) ⟨by rw [h.rest], by rw [h.rest]⟩ with
    offered := by rw [h.rest]
    passQ := by rw [h.rest]
    scanQ := by rw [h.rest]
    events := by rw [h.rest]
    others := fun k hk => ⟨h.surf k, hw k hk⟩ }

/-- A cancellation changes of the surface the deferred jobs and holds. -/
theorem Fabric.detaches_cancelJob (b : Nat) : Fabric.Detaches i f (f.cancelJob i b false) ∧
    (f.cancelJob i b false).surf i =
      { f.surf i with bufs := ((f.cancelJob i b false).surf i).bufs, deferred := ((f.cancelJob i b false).surf i).deferred } := by
  cases hj : f.jobOf i b with
  | none =>
    have : f.cancelJob i b false = f := by
      unfold Fabric.cancelJob
      rw [hj]
    rw [this]
    exact ⟨(Fabric.SameButJobs.refl f).detaches i fun k _ => .refl f k, rfl⟩
  | some j =>
    have he : f.cancelJob i b false =
        (((f.removeJob i b).dropCurrent i b).cancelChunks i b).modBuf i j.source (fun r => { r with hold := false }) := by
      unfold Fabric.cancelJob
      rw [hj]
      rfl
    have h1 := (f.sameButJobs_removeJob i b).trans (Fabric.sameButJobs_dropCurrent _ i b)
    have h2 := h1.trans (Fabric.sameButJobs_cancelChunks _ i b)
    rw [he]
    constructor
    · refine (h2.detaches i fun k hk => ?_).trans (Fabric.detaches_modSurf _ i _)
      exact ((Fabric.keepsWaits_of_eq fun c => f.jobOf_removeJob_other i b hk c).trans
        (Fabric.keepsWaits_dropCurrent _ i b k)).trans (Fabric.keepsWaits_of_eq fun _ => rfl)
    · unfold Fabric.modBuf
      rw [Fabric.surf_modSurf_same, h2.surf i]
      rfl

theorem Fabric.detaches_cancelJobs : Fabric.Detaches i f (f.cancelJobs i) ∧
    (f.cancelJobs i).surf i =
      { f.surf i with bufs := ((f.cancelJobs i).surf i).bufs, deferred := ((f.cancelJobs i).surf i).deferred } := by
  have fold : ∀ (l : List CopyJob) (g : Fabric), Fabric.Detaches i g (l.foldl (fun g j => g.cancelJob i j.target false) g) ∧
      (l.foldl (fun g j => g.cancelJob i j.target false) g).surf i =
        { g.surf i with bufs := ((l.foldl (fun g j => g.cancelJob i j.target false) g).surf i).bufs,
                        deferred := ((l.foldl (fun g j => g.cancelJob i j.target false) g).surf i).deferred } := fun l => by
    induction l with
    | nil => exact fun g => ⟨(Fabric.SameButJobs.refl g).detaches i fun k _ => .refl g k, rfl⟩
    | cons j l ih =>
      intro g
      obtain ⟨h1, h2⟩ := g.detaches_cancelJob i j.target
      obtain ⟨h3, h4⟩ := ih (g.cancelJob i j.target false)
      exact ⟨h1.trans h3, by rw [List.foldl_cons, h4, h2]⟩
  exact fold (f.jobsOf i) f

theorem Fabric.cancelJobs_none (hq : ∀ j ∈ f.copy.queue, j.surface ≠ i) (hd : (f.surf i).deferred = []) : f.cancelJobs i = f := by
  unfold Fabric.cancelJobs Fabric.jobsOf
  rw [hd, List.filter_eq_nil_iff.mpr fun j hj => by simpa using hq j hj]
  rfl

end

end Sys2Proof.Machine

/-! # DETACH: the surface it leaves, and the end of its drain (R32, R33) -/

namespace Sys2Proof.Machine

set_option Elab.async false

/-- The stages of DETACH before the tests of the buffers (R32). -/
def Fabric.withdrawn (f : Fabric) (i : Fin 8) : Fabric :=
  let f := f.modSurf i (fun su => { su with life := .detaching })
  let f := f.dropLane i
  let f := f.dropScansOf (fun e => decide (e.surface = i))
  let f := f.modSurf i (fun su => { su.interruptMerges (fun _ => true) with slot := none })
  let f := f.cancelJobs i
  f.modSurf i Surface.retireBuffers

theorem Fabric.detach_eq (f : Fabric) (env : Env) (i : Fin 8) : f.detach env i = (f.withdrawn i).bufferTests env i := rfl

/-- A buffer out of use (R32, R105). -/
def BufRec.retired (r : BufRec) : BufRec := if r.st.inUse then r.leaveUse else r

/-- The merges that an interruption of all of them drops from buffer `b` (R71). -/
def Surface.droppedMerges (su : Surface) (b : Nat) : Nat :=
  su.merges.countP (fun m => decide (m.buf = b) && (decide (m.st = .waiting) || decide (m.st = .reading) && m.formed.isSome))

theorem Surface.droppedMerges_eq (su : Surface) (b : Nat) : su.merges.countP (Merge.droppedBy (fun _ => true) b) = su.droppedMerges b := by
  refine List.countP_congr fun m _ => ?_
  unfold Merge.droppedBy Merge.interrupt
  cases m.st <;> cases m.formed <;> simp

/-- What the stages leave of the surface, before the tests. -/
structure Surface.Withdrawn (su su' : Surface) : Prop where
  rest : su' = { su with life := .detaching, lane := [], head := .fresh, slot := none, present := [], closing := [],
                         closePending := false, latch := none, holdWait := 0, holdReached := false,
                         bufs := su'.bufs, merges := su'.merges, deferred := su'.deferred }
  out : ∀ r ∈ su'.bufs, r.st.inUse = false
  ended : ∀ m ∈ su'.merges, m.st = .writing ∨ m.noWrite = true

/-- The buffers and merges of a surface without copy jobs, before the tests. -/
structure Surface.WithdrawnExactly (su su' : Surface) (q : List ScanEntry) (i : Fin 8) : Prop where
  bufs : ∀ b : Nat, su'.bufs[b]? = (su.bufs[b]?).map (fun r : BufRec => BufRec.retired
    { r with scanReads := r.scanReads - scanPartsOf i b q, merges := r.merges - su.droppedMerges b })
  merges : (su.merges.map (fun m => m.id)).Nodup → su'.merges = su.merges.filterMap Merge.interrupt

theorem BufRec.inUse_retired (r : BufRec) : r.retired.st.inUse = false := by
  unfold BufRec.retired
  split
  · rcases r.leaveUse_st with h | h <;> rw [h] <;> rfl
  · next h => exact Bool.eq_false_iff.mpr h

theorem scanPartsOf_own (i : Fin 8) (b : Nat) (q : List ScanEntry) :
    scanPartsOf i b (q.filter (fun e => decide (e.surface = i))) = scanPartsOf i b q := by
  unfold scanPartsOf
  rw [List.filter_filter]
  refine congrArg (fun l : List ScanEntry => (l.map fun e => e.parts.length).sum) (List.filter_congr fun e _ => ?_)
  by_cases h : e.surface = i
  · simp [h]
  · simp [h]

theorem Fabric.withdrawn_spec (f : Fabric) (i : Fin 8) : Fabric.Detaches i f (f.withdrawn i) ∧
    (∀ q ∈ (f.surf i).lane, f.Aborts (f.withdrawn i) q.id) ∧ (∀ e ∈ f.scanQ, e.surface = i → f.Aborts (f.withdrawn i) e.id) ∧
    (f.surf i).Withdrawn ((f.withdrawn i).surf i) ∧
    ((∀ j ∈ f.copy.queue, j.surface ≠ i) → (f.surf i).deferred = [] →
      (f.surf i).WithdrawnExactly ((f.withdrawn i).surf i) f.scanQ i) := by
  have d0 := f.detaches_modSurf i (fun su => { su with life := .detaching })
  have s0 := f.surf_modSurf_same i (fun su => { su with life := .detaching })
  have q0 : (f.modSurf i (fun su => { su with life := .detaching })).scanQ = f.scanQ := rfl
  have c0 : (f.modSurf i (fun su => { su with life := .detaching })).copy = f.copy := rfl
  have b0 : f.SameBooks (f.modSurf i (fun su => { su with life := .detaching })) := ⟨rfl, rfl⟩
  unfold Fabric.withdrawn
  dsimp only
  generalize f.modSurf i (fun su => { su with life := .detaching }) = f0 at *
  obtain ⟨d1, a1, s1⟩ := f0.detaches_dropLane i
  have r1 : (f0.dropLane i).scanQ = f0.scanQ ∧ (f0.dropLane i).copy = f0.copy := by
    unfold Fabric.dropLane
    rw [Fabric.dropRests_rest]
    exact ⟨rfl, rfl⟩
  generalize f0.dropLane i = f1 at *
  have d2 := f1.detaches_dropScansOf i
  obtain ⟨-, a2, r2, s2⟩ := f1.dropScansOf_spec (fun e => decide (e.surface = i))
  generalize f1.dropScansOf (fun e => decide (e.surface = i)) = f2 at *
  obtain ⟨s2, u2⟩ := s2 i
  have d3 := f2.detaches_modSurf i (fun su => { su.interruptMerges (fun _ => true) with slot := none })
  have s3 := f2.surf_modSurf_same i (fun su => { su.interruptMerges (fun _ => true) with slot := none })
  have c3 : (f2.modSurf i (fun su => { su.interruptMerges (fun _ => true) with slot := none })).copy = f2.copy := rfl
  generalize f2.modSurf i (fun su => { su.interruptMerges (fun _ => true) with slot := none }) = f3 at *
  obtain ⟨d4, s4⟩ := f3.detaches_cancelJobs i
  have n4 := f3.cancelJobs_none i
  generalize f3.cancelJobs i = f4 at *
  have d5 := f4.detaches_modSurf i Surface.retireBuffers
  have s5 := f4.surf_modSurf_same i Surface.retireBuffers
  generalize f4.modSurf i Surface.retireBuffers = f5 at *
  have later1 := (((d2.trans d3).trans d4).trans d5)
  have later2 := ((d3.trans d4).trans d5)
  have hrest := (f2.surf i).interruptMerges_rest (fun _ => true)
  have hmerges2 : (f2.surf i).merges = (f.surf i).merges := by rw [s2, s1, s0]
  have m5 : (f5.surf i).merges = ((f2.surf i).interruptMerges (fun _ => true)).merges := by rw [s5, Surface.retireBuffers, s4, s3]
  refine ⟨(((((d0.trans d1).trans d2).trans d3).trans d4).trans d5), fun q hq => ?_, fun e he hi => ?_, ⟨?_, ?_, ?_⟩, fun hq hd => ⟨?_, ?_⟩⟩
  · exact ((a1 q (by rw [s0]; exact hq)).keep later1.toKeepsAnswers).of_record (by rw [b0.1])
  · refine (d0.trans d1).aborts later1.toKeepsAnswers ?_
    exact (a2 e (by rw [r1.1, q0]; exact he) (decide_eq_true hi)).keep later2.toKeepsAnswers
  · rw [s5, Surface.retireBuffers, s4, s3, hrest, s2, s1, s0]
  · rw [s5]
    intro r hr
    obtain ⟨r0, -, rfl⟩ := List.mem_map.mp hr
    exact r0.inUse_retired
  · intro m hm
    rw [m5] at hm
    rcases Surface.interruptMerges_mem _ _ hm with ⟨m0, -, -, h⟩ | ⟨-, h⟩
    · exact Merge.interrupt_ends h
    · cases h
  · intro b
    have hc3 : f3.copy.queue = f.copy.queue := by rw [c3, r2, r1.2, c0]
    have hd3 : (f3.surf i).deferred = [] := by rw [s3, hrest, s2, s1, s0]; exact hd
    have h43 : f4 = f3 := n4 (by rw [hc3]; exact hq) hd3
    have hb5 : (f5.surf i).bufs = ((f2.surf i).interruptMerges (fun _ => true)).bufs.map BufRec.retired := by rw [s5, h43, s3]; rfl
    rw [hb5, List.getElem?_map, Surface.interruptMerges_bufs, u2, s1, s0, Option.map_map, Option.map_map, r1.1, q0]
    refine congrArg (fun g => Option.map g _) (funext fun r => ?_)
    simp only [Function.comp_apply]
    rw [hmerges2, Surface.droppedMerges_eq, scanPartsOf_own]
  · intro hn
    rw [m5, Surface.interruptMerges_nodup _ _ (by rw [hmerges2]; exact hn), hmerges2]
    rfl

/-! ## The end of the drain -/

/-- The drain has ended (R33). -/
def Surface.Drained (su : Surface) : Prop := (∀ r ∈ su.bufs, r.st = .free) ∧ ∀ m ∈ su.merges, m.st = .writing

theorem Surface.drained_iff {su : Surface} :
    (su.bufs.all (fun r => decide (r.st = .free)) = true ∧ su.mergeOutstanding = false) ↔ su.Drained := by
  unfold Surface.Drained Surface.mergeOutstanding Merge.outstanding
  rw [List.all_eq_true, List.any_eq_false]
  simp

/-- The tests of a DETACHING surface without CLOSING buffers. -/
theorem Fabric.bufferTests_detaching (f : Fabric) (env : Env) (i : Fin 8) (hl : (f.surf i).life = .detaching)
    (hc : (f.surf i).closing = []) :
    ((f.bufferTests env i).surf i).life = .defined ∧ (f.surf i).released.Drained ∧
        (f.bufferTests env i).surf i = { (f.surf i).released with life := .defined, bufs := [], present := [], closing := [] } ∧
        (f.bufferTests env i).events = (if env.running then appendEvent f.events
          { kind := .detached, surface := BitVec.ofNat 8 i.val, pipe := BitVec.ofNat 8 (f.surf i).desc.pipe.toNat, buffer := 0xFF,
            seq := 0, detail := 0, stamp := env.now } else f.events) ∨
      ((f.bufferTests env i).surf i).life = .detaching ∧ ¬ (f.surf i).released.Drained ∧
        (f.bufferTests env i).surf i = (f.surf i).released ∧ (f.bufferTests env i).events = f.events := by
  have hs := f.surf_released i
  have he : f.bufferTests env i = (f.modSurf i Surface.released).drainEnd env i := by
    change (Fabric.promoteReady env i ((f.modSurf i Surface.released).surf i).closing (f.modSurf i Surface.released)).drainEnd env i = _
    rw [show ((f.modSurf i Surface.released).surf i).closing = [] by rw [hs]; exact hc]
    rfl
  rw [he]
  unfold Fabric.drainEnd
  dsimp only
  rw [hs]
  by_cases hd : (f.surf i).released.Drained
  · refine .inl ?_
    rw [if_pos ⟨hl, Surface.drained_iff.mpr hd⟩]
    cases hr : env.running with
    | false =>
      rw [if_neg Bool.false_ne_true, Fabric.modSurf_modSurf, Fabric.surf_modSurf_same]
      exact ⟨rfl, hd, rfl, rfl⟩
    | true =>
      rw [if_pos rfl, Fabric.surf_logSurf, Fabric.modSurf_modSurf, Fabric.surf_modSurf_same]
      refine ⟨rfl, hd, rfl, ?_⟩
      unfold Fabric.logSurf
      rw [Fabric.surf_modSurf_same]
      rfl
  · refine .inr ?_
    rw [if_neg fun h => hd (Surface.drained_iff.mp h.2), hs]
    exact ⟨hl, hd, rfl, rfl⟩

end Sys2Proof.Machine

/-! # DETACH of an ATTACHED surface (R32, R33) -/

namespace Sys2Proof.Machine

set_option Elab.async false

/-! ## Nothing but scanout heads and the engine moves on -/

theorem Fabric.leaveScans_quiet (n : Nat) (f : Fabric) :
    (Fabric.leaveScans n f).events = f.events ∧ (Fabric.leaveScans n f).passQ = f.passQ ∧
      (Fabric.leaveScans n f).offered = f.offered ∧ (Fabric.leaveScans n f).scanQ.Sublist f.scanQ := by
  induction n generalizing f with
  | zero => exact ⟨rfl, rfl, rfl, .refl _⟩
  | succ n ih =>
    unfold Fabric.leaveScans
    split
    · next e es he =>
      split
      · have hm := ({ f with scanQ := es } : Fabric).markDone_rest e.id
        generalize ({ f with scanQ := es } : Fabric).markDone e.id = g at hm
        obtain ⟨h1, h2, h3, h4⟩ := ih g
        exact ⟨h1.trans (by rw [hm]), h2.trans (by rw [hm]), h3.trans (by rw [hm]),
          h4.trans (by rw [hm, he]; exact List.sublist_cons_self e es)⟩
      · exact ⟨rfl, rfl, rfl, .refl _⟩
    · exact ⟨rfl, rfl, rfl, .refl _⟩

/-- Where no lane moves on and no request waits, what the part does at once appends no record and takes no request in. -/
theorem Fabric.finish_quiet {g : Fabric} (env : Env) (ho : g.offered = [])
    (h : ∀ k, (g.surf k).life ≠ .attached ∨ g.surfaceRests k = true) :
    (g.finish env).events = g.events ∧ (g.finish env).passQ = g.passQ ∧ (g.finish env).scanQ.Sublist g.scanQ := by
  have fold : ∀ (l : List (Fin 8)) (f : Fabric), (∀ k, (f.surf k).life ≠ .attached ∨ f.surfaceRests k = true) →
      (l.foldl (Fabric.settleSurface env) f).events = f.events ∧ (l.foldl (Fabric.settleSurface env) f).passQ = f.passQ ∧
        (l.foldl (Fabric.settleSurface env) f).offered = f.offered ∧ (l.foldl (Fabric.settleSurface env) f).scanQ = f.scanQ := by
    intro l
    induction l with
    | nil => exact fun f _ => ⟨rfl, rfl, rfl, rfl⟩
    | cons k l ih =>
      intro f hf
      have step : (Fabric.settleSurface env f k).events = f.events ∧
          ∀ k', ((Fabric.settleSurface env f k).surf k').life ≠ .attached ∨ (Fabric.settleSurface env f k).surfaceRests k' = true := by
        rcases hf k with hl | hr
        · have he : Fabric.settleSurface env f k = f.presentMerge k := by
            rw [Fabric.settleSurface, f.runLane_unattached env k _ hl]
          obtain ⟨-, hev, -, -, hs, -⟩ := f.presentMerge_spec k
          rw [he]
          refine ⟨hev, fun k' => ?_⟩
          by_cases e : k' = k
          · subst e
            exact .inl (by rw [hs]; exact hl)
          · have hb := f.beside_presentMerge k
            rw [hb.surf k' e, hb.surfaceRests e]
            exact hf k'
        · rw [Fabric.settleSurface_of_rests f env k hr]
          exact ⟨rfl, hf⟩
      have hb := f.beside_settleSurface env k
      obtain ⟨h1, h2, h3, h4⟩ := ih _ step.2
      exact ⟨h1.trans step.1, h2.trans hb.passQ, h3.trans hb.offered, h4.trans hb.scanQ⟩
  obtain ⟨h1, h2, h3, h4⟩ := fold allSurfaces g h
  have hset : (g.settle env).events = g.events ∧ (g.settle env).passQ = g.passQ ∧ (g.settle env).offered = [] ∧
      (g.settle env).scanQ.Sublist g.scanQ := by
    unfold Fabric.settle
    dsimp only
    generalize allSurfaces.foldl (Fabric.settleSurface env) g = f at h1 h2 h3 h4
    obtain ⟨l1, l2, l3, l4⟩ := Fabric.leaveScans_quiet f.scanQ.length f
    rw [(Fabric.sameButJobs_runEngine 5 _).rest]
    exact ⟨l1.trans h1, l2.trans h2, (l3.trans h3).trans ho, h4 ▸ l4⟩
  obtain ⟨s1, s2, s3, s4⟩ := hset
  rw [Fabric.finish_of_settle env rfl s3]
  exact ⟨s1, s2, s4⟩

/-! ## When the drain ends at once -/

theorem BufRec.release_retired (r : BufRec) : r.retired.release.st = .free ↔ r.st = .free ∨ r.countsZero = true ∧ r.hold = false := by
  have hu : r.unused = .free ↔ r.countsZero = true ∧ r.hold = false := by
    unfold BufRec.unused
    split
    · next h => exact ⟨fun _ => h, fun _ => rfl⟩
    · next h => exact ⟨nofun, fun h' => absurd h' h⟩
  rw [BufRec.release_eq]
  unfold BufRec.retired BufRec.tested
  by_cases hf : r.st = .free
  · simp [hf, BufState.inUse]
  · by_cases hd : r.st = .draining
    · simp [hd, BufState.inUse, hu]
    · have hi : r.st.inUse = true := by cases hst : r.st <;> simp_all [BufState.inUse]
      rw [if_pos hi, BufRec.leaveUse_eq]
      rcases r.unused_ne with h | h
      · rw [if_neg (by simp [h])]
        simpa [hf] using hu
      · rw [if_pos (by simp [h])]
        rw [show BufRec.unused { r with st := r.unused } = r.unused from rfl]
        simpa [hf] using hu

theorem Merge.interrupt_writing (m : Merge) : (∀ m', m.interrupt = some m' → m'.st = .writing) ↔ ¬ (m.st = .reading ∧ m.formed = none) := by
  unfold Merge.interrupt
  cases hs : m.st <;> cases hf : m.formed <;> simp_all

/-- Without a copy job and source hold the drain ends at once exactly when no access is in flight. -/
theorem Surface.WithdrawnExactly.drained {su su' : Surface} {q : List ScanEntry} {i : Fin 8} (h : su.WithdrawnExactly su' q i)
    (hn : (su.merges.map (fun m => m.id)).Nodup) (hh : ∀ r ∈ su.bufs, r.hold = false) : su'.released.Drained ↔
      (∀ b r, su.bufs[b]? = some r → r.st = .free ∨
        r.prodWrites = 0 ∧ r.prodReads = 0 ∧ r.copyReads = 0 ∧ r.copyWrites = 0 ∧ r.merges ≤ su.droppedMerges b ∧
          r.scanReads ≤ scanPartsOf i b q) ∧
      ∀ m ∈ su.merges, ¬ (m.st = .reading ∧ m.formed = none) := by
  unfold Surface.Drained
  refine and_congr ?_ ?_
  · have one : ∀ b r, su.bufs[b]? = some r → ((BufRec.retired { r with
        scanReads := r.scanReads - scanPartsOf i b q, merges := r.merges - su.droppedMerges b }).release.st = .free ↔
        r.st = .free ∨ r.prodWrites = 0 ∧ r.prodReads = 0 ∧ r.copyReads = 0 ∧ r.copyWrites = 0 ∧
          r.merges ≤ su.droppedMerges b ∧ r.scanReads ≤ scanPartsOf i b q) := fun b r hr => by
      rw [BufRec.release_retired]
      refine or_congr Iff.rfl ?_
      simp only [BufRec.countsZero, Bool.and_eq_true, beq_iff_eq, hh r (List.mem_of_getElem? hr), and_true, Nat.sub_eq_zero_iff_le]
      tauto
    constructor
    · intro hall b r hr
      refine (one b r hr).mp (hall _ (List.mem_map_of_mem (List.mem_of_getElem? (i := b) ?_)))
      rw [h.bufs, hr]
      rfl
    · intro hall y hy
      obtain ⟨x, hx, rfl⟩ := List.mem_map.mp hy
      obtain ⟨b, hb⟩ := List.mem_iff_getElem?.mp hx
      rw [h.bufs] at hb
      obtain ⟨r, hr, rfl⟩ := Option.map_eq_some_iff.mp hb
      exact (one b r hr).mpr (hall b r hr)
  · change (∀ m ∈ su'.merges, m.st = .writing) ↔ _
    rw [h.merges hn]
    simp only [List.mem_filterMap, forall_exists_index, and_imp]
    exact ⟨fun hall m hm => (Merge.interrupt_writing m).mp fun m' hm' => hall m' m hm hm',
      fun hall m' m hm hm' => (Merge.interrupt_writing m).mpr (hall m hm) m' hm'⟩

/-! ## The whole of DETACH -/

/-- What a part with another fabric does at once. -/
theorem State.finish_with (s : State) (g : Fabric) : ({ s with fab := g } : State).finish = { s with fab := g.finish s.env } :=
  State.finish_eq { s with fab := g }

theorem exec_detach {s : State} {i : Fin 8} {p : Byte} (ht : s.Takes 0x13 [p]) (hd : s.device = .running) (hp : p.toNat = i.val)
    (hl : (s.surf i).life = .attached) :
    exec (.detach [p]) s = .next (({ s with fab := s.fab.detach s.env i } : State).finish.replied .accepted []) := by
  rw [show exec (.detach [p]) s = _ from exec_row_running (c := .detach) ht rfl hd]
  simp only [Command.apply, applyDetach, State.named_of_eq s (show (byteAt [p] 0).toNat = i.val from hp), hl]
  rfl

theorem BufRec.release_out (r : BufRec) (h : r.st.inUse = false) : r.release.st = .free ∨ r.release.st = .draining := by
  unfold BufRec.release
  split
  · exact .inl rfl
  · cases hst : r.st with
    | free => exact .inl rfl
    | draining => exact .inr rfl
    | filling | closing | ready | shown =>
      rw [hst] at h
      cases h

/-- Settles O28. -/
theorem detachBegins : Obligations.DetachBegins := by
  intro s i p ht hd hp hl
  have hexec := exec_detach ht hd hp hl
  obtain ⟨hw, ha, hq, hs, hx⟩ := s.fab.withdrawn_spec i
  have hrun : s.env.running = true := decide_eq_true hd
  have hDe := s.fab.detach_eq s.env i
  have hlife : ((s.fab.withdrawn i).surf i).life = .detaching := by rw [hs.rest]
  have hclosing : ((s.fab.withdrawn i).surf i).closing = [] := by rw [hs.rest]
  have hcase := (s.fab.withdrawn i).bufferTests_detaching s.env i hlife hclosing
  have hbooks := (s.fab.withdrawn i).sameBooks_bufferTests s.env i
  have hbeside := (s.fab.withdrawn i).beside_bufferTests i s.env
  rw [← hDe] at hcase hbooks hbeside
  clear hDe
  generalize s.fab.detach s.env i = D at *
  generalize s.fab.withdrawn i = W at *
  rw [State.finish_with] at hexec
  have hpast := D.past_finish s.env
  have hquiet : s.AtRest → (D.finish s.env).events = D.events := fun hr => by
    obtain ⟨ho, hrs, -, -⟩ := Fabric.rests_iff.mp hr
    refine (Fabric.finish_quiet s.env (by rw [hbeside.offered, hw.offered, ho]) fun k => ?_).1
    by_cases e : k = i
    · subst e
      rcases hcase with ⟨h, -⟩ | ⟨h, -⟩ <;> exact .inl (by rw [h]; nofun)
    · obtain ⟨h1, h2⟩ := hw.others k e
      exact .inr ((hbeside.surfaceRests e).trans (Fabric.surfaceRests_of_waits h1 h2 (hrs k)))
  generalize D.finish s.env = F at *
  have hD : (D.surf i).life ≠ .attached := by rcases hcase with ⟨h, -⟩ | ⟨h, -⟩ <;> rw [h] <;> nofun
  have hU := hpast.surf i hD
  have hF := hU.rest
  have hkeep : W.KeepsAnswers F := hbooks.answers.trans hpast.toKeepsAnswers
  refine ⟨_, hexec, rfl, ?_, fun hq hd hh hn => ?_, fun hr => ?_, fun q h => State.aborted_iff.mpr ((ha q h).keep hkeep),
    fun e he hi => State.aborted_iff.mpr ((hq e he hi).keep hkeep), ?_⟩
  · rcases hcase with ⟨h, hdr, hsu, -⟩ | ⟨h, hdr, hsu, -⟩
    · exact .inr ⟨hU.life.trans h, congrArg Surface.bufs hF |>.trans (congrArg Surface.bufs hsu),
        (hU.merge_phase (P := fun st _ => st = .writing)).mpr (by rw [hsu]; exact hdr.2)⟩
    · refine .inl ⟨hU.life.trans h, fun hno => hdr ?_⟩
      rw [← hsu]
      exact ⟨fun r hr => hno.1 r (congrArg Surface.bufs hF ▸ hr), (hU.merge_phase (P := fun st _ => st = .writing)).mp hno.2⟩
  · refine Iff.trans ?_ ((hx hq hd).drained hn hh)
    rcases hcase with ⟨h, hdr, -⟩ | ⟨h, hdr, -⟩
    · exact ⟨fun _ => hdr, fun _ => hU.life.trans h⟩
    · exact ⟨fun h' => absurd ((hU.life.trans h).symm.trans h') nofun, fun h' => absurd h' hdr⟩
  · change F.events = _
    rw [hquiet hr]
    rcases hcase with ⟨h, -, -, he⟩ | ⟨h, -, -, he⟩
    · refine Eq.trans ?_ (if_pos (show (F.surf i).life = .defined from hU.life.trans h)).symm
      rw [he, if_pos hrun, hw.events, hs.rest]
      simp only [BitVec.ofNat_toNat, BitVec.setWidth_eq]
      rfl
    · refine Eq.trans ?_ (if_neg (show (F.surf i).life ≠ .defined by rw [hU.life, h]; nofun)).symm
      rw [he, hw.events]
  · have hrest : (D.surf i).desc = (s.surf i).desc ∧ (D.surf i).lane = [] ∧ (D.surf i).slot = none ∧ (D.surf i).present = [] ∧
        (D.surf i).latch = none ∧ (D.surf i).closePending = false ∧ (D.surf i).holdWait = 0 ∧
        (∀ r ∈ (D.surf i).bufs, r.st = .free ∨ r.st = .draining) ∧
        (D.surf i).merges = (W.surf i).merges := by
      rcases hcase with ⟨-, -, hsu, -⟩ | ⟨-, -, hsu, -⟩ <;> rw [hsu, Surface.released, hs.rest] <;>
        refine ⟨rfl, rfl, rfl, rfl, rfl, rfl, rfl, ?_, rfl⟩
      · exact fun _ h => absurd h List.not_mem_nil
      · intro r hr
        obtain ⟨r0, h0, rfl⟩ := List.mem_map.mp hr
        exact r0.release_out (hs.out r0 h0)
    obtain ⟨h1, h2, h3, h4, h5, h6, h7, h8, h9⟩ := hrest
    refine ⟨(congrArg Surface.desc hF).trans h1, (congrArg Surface.lane hF).trans h2, (congrArg Surface.slot hF).trans h3,
      (congrArg Surface.present hF).trans h4, (congrArg Surface.latch hF).trans h5, (congrArg Surface.closePending hF).trans h6,
      (congrArg Surface.holdWait hF).trans h7, fun r hr => h8 r (congrArg Surface.bufs hF ▸ hr), ?_, rfl, rfl, rfl, rfl, rfl, rfl,
      rfl, rfl, rfl, rfl⟩
    exact (hU.merge_phase (P := fun st w => st = .writing ∨ w = true)).mpr (by rw [h9]; exact hs.ended)

end Sys2Proof.Machine

/-! # RESET taken in RUNNING (R184, R16, R21) -/

namespace Sys2Proof.Machine

set_option Elab.async false

/-! ## Every queue and lane is emptied (R21) -/

/-- What emptying lanes and detaching leaves of all that the surfaces and their scanout reads do not hold. -/
structure Fabric.Empties (f g : Fabric) : Prop extends Fabric.Drops f g where
  offered : g.offered = f.offered
  passQ : g.passQ = f.passQ
  scanQ : g.scanQ.Sublist f.scanQ
  events : g.events = f.events
  desc : ∀ k, (g.surf k).desc = (f.surf k).desc
  lanes : ∀ k, (f.surf k).lane = [] → (g.surf k).lane = []
  lives : ∀ k, (f.surf k).life ≠ .attached → (g.surf k).life ≠ .attached

theorem Fabric.Empties.refl (f : Fabric) : f.Empties f :=
  { Fabric.Drops.refl f with
    offered := rfl, passQ := rfl, scanQ := .refl _, events := rfl, desc := fun _ => rfl, lanes := fun _ h => h,
    lives := fun _ h => h }

theorem Fabric.Empties.trans {f g h : Fabric} (a : f.Empties g) (b : g.Empties h) : f.Empties h :=
  { a.toDrops.trans b.toDrops with
    offered := b.offered.trans a.offered
    passQ := b.passQ.trans a.passQ
    scanQ := b.scanQ.trans a.scanQ
    events := b.events.trans a.events
    desc := fun k => (b.desc k).trans (a.desc k)
    lanes := fun k h => b.lanes k (a.lanes k h)
    lives := fun k h => b.lives k (a.lives k h) }

section
variable (f : Fabric) (env : Env) (i : Fin 8)

theorem Fabric.empties_dropLane : f.Empties (f.dropLane i) := by
  obtain ⟨hd, -, hs⟩ := f.detaches_dropLane i
  have each : ∀ k, ((f.dropLane i).surf k).desc = (f.surf k).desc ∧ ((f.surf k).lane = [] → ((f.dropLane i).surf k).lane = []) ∧
      ((f.dropLane i).surf k).life = (f.surf k).life := fun k => by
    by_cases e : k = i
    · subst e
      rw [hs]
      exact ⟨rfl, fun _ => rfl, rfl⟩
    · rw [(hd.others k e).1]
      exact ⟨rfl, fun h => h, rfl⟩
  exact { hd with desc := fun k => (each k).1, lanes := fun k => (each k).2.1, lives := fun k h => (each k).2.2 ▸ h }

/-- Every lane of a list is emptied with its requests dropped. -/
theorem Fabric.foldl_dropLane (l : List (Fin 8)) (f : Fabric) :
    f.Empties (l.foldl (fun g i => g.dropLane i) f) ∧
      (∀ k, ((l.foldl (fun g i => g.dropLane i) f).surf k).life = (f.surf k).life) ∧
      ∀ k ∈ l, ((l.foldl (fun g i => g.dropLane i) f).surf k).lane = [] ∧
        ∀ q ∈ (f.surf k).lane, f.Aborts (l.foldl (fun g i => g.dropLane i) f) q.id := by
  induction l generalizing f with
  | nil => exact ⟨.refl f, fun _ => rfl, fun _ h => absurd h List.not_mem_nil⟩
  | cons i l ih =>
    obtain ⟨hd, ha, hs⟩ := f.detaches_dropLane i
    have h1 := f.empties_dropLane i
    obtain ⟨h2, hlife, hl⟩ := ih (f.dropLane i)
    refine ⟨h1.trans h2, fun k => (hlife k).trans ?_, fun k hk => ?_⟩
    · by_cases e : k = i
      · subst e
        rw [hs]
      · rw [(hd.others k e).1]
    · by_cases e : k = i
      · subst e
        exact ⟨h2.lanes k (by rw [hs]), fun q hq => (ha q hq).keep h2.toKeepsAnswers⟩
      · obtain ⟨hlane, hab⟩ := hl k ((List.mem_cons.mp hk).resolve_left e)
        refine ⟨hlane, fun q hq => h1.toDrops.aborts h2.toKeepsAnswers (hab q ?_)⟩
        rw [(hd.others k e).1]
        exact hq

/-- The queues and lanes after step 3 of soft reset, and the requests they held. -/
theorem Fabric.dropAll_spec : f.Drops f.dropAll ∧ (∀ e ∈ f.passQ, f.Aborts f.dropAll e.id) ∧
    (∀ e ∈ f.scanQ, f.Aborts f.dropAll e.id) ∧ (∀ k, ∀ q ∈ (f.surf k).lane, f.Aborts f.dropAll q.id) ∧
    f.dropAll.passQ = [] ∧ f.dropAll.scanQ = [] ∧ f.dropAll.offered = f.offered ∧ f.dropAll.events = f.events ∧
    ∀ k, (f.dropAll.surf k).lane = [] ∧ (f.dropAll.surf k).desc = (f.surf k).desc ∧ (f.dropAll.surf k).life = (f.surf k).life := by
  obtain ⟨d1, a1⟩ := Fabric.foldl_drops (op := fun g (e : PassEntry) => g.dropRest e.id) (id := fun e => e.id)
    (fun g a => ⟨g, .refl g, rfl⟩) f.passQ f
  have r1 : ∀ (l : List PassEntry) (f : Fabric), l.foldl (fun g e => g.dropRest e.id) f =
      { f with records := (l.foldl (fun g e => g.dropRest e.id) f).records, sent := (l.foldl (fun g e => g.dropRest e.id) f).sent } := by
    intro l
    induction l with
    | nil => exact fun _ => rfl
    | cons e l ih => exact fun f => by rw [List.foldl_cons, ih, f.dropRest_rest e.id]
  replace r1 := r1 f.passQ f
  unfold Fabric.dropAll Fabric.dropPass
  dsimp only
  generalize f.passQ.foldl (fun g e => g.dropRest e.id) f = g1 at *
  have b1 : g1.SameBooks { g1 with passQ := [] } := ⟨rfl, rfl⟩
  have d1' := d1.trans b1.drops
  have a1' := fun e he => (a1 e he).keep b1.answers
  have q1 : ({ g1 with passQ := [] } : Fabric).scanQ = f.scanQ ∧ ({ g1 with passQ := [] } : Fabric).passQ = [] ∧
      ({ g1 with passQ := [] } : Fabric).offered = f.offered ∧ ({ g1 with passQ := [] } : Fabric).events = f.events ∧
      ∀ k, ({ g1 with passQ := [] } : Fabric).surf k = f.surf k := by
    rw [r1]
    exact ⟨rfl, rfl, rfl, rfl, fun _ => rfl⟩
  generalize ({ g1 with passQ := [] } : Fabric) = g2 at *
  obtain ⟨d2, a2, r2, s2⟩ := g2.dropScansOf_spec (fun _ => true)
  have q2 : (g2.dropScansOf (fun _ => true)).scanQ = [] := by
    rw [r2]
    exact List.filter_eq_nil_iff.mpr fun _ _ => by simp
  generalize g2.dropScansOf (fun _ => true) = g3 at *
  obtain ⟨h4, hlife, hl⟩ := Fabric.foldl_dropLane allSurfaces g3
  generalize allSurfaces.foldl (fun g i => g.dropLane i) g3 = g4 at *
  obtain ⟨hs1, hp1, ho1, he1, hsurf1⟩ := q1
  refine ⟨(d1'.trans d2).trans h4.toDrops, fun e he => (a1' e he).keep (d2.toKeepsAnswers.trans h4.toKeepsAnswers),
    fun e he => ?_, fun k q hq => ?_, by rw [h4.passQ, r2, hp1], List.sublist_nil.mp (q2 ▸ h4.scanQ),
    by rw [h4.offered, r2, ho1], by rw [h4.events, r2, he1], fun k => ⟨(hl k (mem_allSurfaces k)).1, ?_, ?_⟩⟩
  · exact d1'.aborts (d2.toKeepsAnswers.trans h4.toKeepsAnswers) ((a2 e (hs1 ▸ he) rfl).keep h4.toKeepsAnswers)
  · refine (d1'.trans d2).aborts h4.toKeepsAnswers ((hl k (mem_allSurfaces k)).2 q ?_)
    rw [(s2 k).1, hsurf1]
    exact hq
  · rw [h4.desc, (s2 k).1, hsurf1]
  · rw [hlife, (s2 k).1, hsurf1]

/-! ## The surfaces detach -/

theorem Fabric.empties_detach (hr : env.running = false) : f.Empties (f.detach env i) ∧
    ((f.detach env i).surf i).life ≠ .attached ∧ ∀ k, k ≠ i → ((f.detach env i).surf k).life = (f.surf k).life := by
  obtain ⟨hw, -, -, hs, -⟩ := f.withdrawn_spec i
  rw [f.detach_eq env i]
  have hlife : ((f.withdrawn i).surf i).life = .detaching := by rw [hs.rest]
  have hclosing : ((f.withdrawn i).surf i).closing = [] := by rw [hs.rest]
  have hcase := (f.withdrawn i).bufferTests_detaching env i hlife hclosing
  have hbooks := (f.withdrawn i).sameBooks_bufferTests env i
  have hb := (f.withdrawn i).beside_bufferTests i env
  generalize f.withdrawn i = W at *
  generalize W.bufferTests env i = D at *
  rw [hr] at hcase
  have own : (D.surf i).life ≠ .attached ∧ (D.surf i).lane = [] ∧ (D.surf i).desc = (f.surf i).desc ∧ D.events = W.events := by
    rcases hcase with ⟨h, -, hsu, he⟩ | ⟨h, -, hsu, he⟩
    · exact ⟨by rw [h]; nofun, by rw [hsu, Surface.released, hs.rest], by rw [hsu, Surface.released, hs.rest], he⟩
    · exact ⟨by rw [h]; nofun, by rw [hsu, Surface.released, hs.rest], by rw [hsu, Surface.released, hs.rest], he⟩
  obtain ⟨o1, o2, o3, o4⟩ := own
  have others : ∀ k, k ≠ i → D.surf k = { f.surf k with deferred := (W.surf k).deferred } := fun k hk => by
    rw [hb.surf k hk, (hw.others k hk).1]
  refine ⟨{ hw.toDrops.trans hbooks.drops with
    offered := hb.offered.trans hw.offered
    passQ := hb.passQ.trans hw.passQ
    scanQ := hb.scanQ ▸ hw.scanQ
    events := o4.trans hw.events
    desc := fun k => ?_, lanes := fun k h => ?_, lives := fun k h => ?_ }, o1, fun k hk => by rw [others k hk]⟩ <;>
  by_cases e : k = i
  · exact e ▸ o3
  · rw [others k e]
  · exact e ▸ o2
  · rw [others k e]
    exact h
  · exact e ▸ o1
  · rw [others k e]
    exact h

theorem Fabric.foldl_detach (hr : env.running = false) (l : List (Fin 8)) (f : Fabric) :
    f.Empties (l.foldl (fun g i => g.detach env i) f) ∧
      (∀ k ∈ l, ((l.foldl (fun g i => g.detach env i) f).surf k).life ≠ .attached) ∧
      ∀ k, k ∉ l → ((l.foldl (fun g i => g.detach env i) f).surf k).life = (f.surf k).life := by
  induction l generalizing f with
  | nil => exact ⟨.refl f, fun _ h => absurd h List.not_mem_nil, fun _ _ => rfl⟩
  | cons i l ih =>
    obtain ⟨h1, hi, ho⟩ := f.empties_detach env i hr
    rw [List.foldl_cons]
    generalize f.detach env i = g at h1 hi ho
    obtain ⟨h2, hl, hn⟩ := ih g
    refine ⟨h1.trans h2, fun k hk => ?_, fun k hk => ?_⟩
    · rcases List.mem_cons.mp hk with rfl | hk
      · exact h2.lives k hi
      · exact hl k hk
    · obtain ⟨hki, hkl⟩ := List.ne_and_not_mem_of_not_mem_cons hk
      exact (hn k hkl).trans (ho k hki)

end

/-! ## The whole of RESET -/

/-- What the steps before the end of RESETTING make of the queues and surfaces (R184). -/
def Fabric.resetBy (f : Fabric) (env : Env) (order : List (Fin 8)) : Fabric := order.foldl (fun g i => g.detach env i) f.dropAll

theorem Fabric.resetBy_spec (f : Fabric) {env : Env} (hr : env.running = false) {order : List (Fin 8)}
    (ho : ∀ k, k ∈ order ↔ (f.surf k).life = .attached) :
    (∀ e ∈ f.passQ, f.Aborts (f.resetBy env order) e.id) ∧ (∀ e ∈ f.scanQ, f.Aborts (f.resetBy env order) e.id) ∧
    (∀ k, ∀ q ∈ (f.surf k).lane, f.Aborts (f.resetBy env order) q.id) ∧
    (f.resetBy env order).passQ = [] ∧ (f.resetBy env order).scanQ = [] ∧ (f.resetBy env order).offered = f.offered ∧
    (f.resetBy env order).events = f.events ∧
    ∀ k, ((f.resetBy env order).surf k).lane = [] ∧ ((f.resetBy env order).surf k).desc = (f.surf k).desc ∧
      ((f.resetBy env order).surf k).life ≠ .attached ∧
      ((f.surf k).life ≠ .attached → ((f.resetBy env order).surf k).life = (f.surf k).life) := by
  obtain ⟨-, a1, a2, a3, hp, hs, hf, he, hk⟩ := f.dropAll_spec
  obtain ⟨h, hin, hout⟩ := Fabric.foldl_detach env hr order f.dropAll
  unfold Fabric.resetBy
  generalize order.foldl (fun g i => g.detach env i) f.dropAll = g at *
  generalize f.dropAll = d at *
  refine ⟨fun e h' => (a1 e h').keep h.toKeepsAnswers, fun e h' => (a2 e h').keep h.toKeepsAnswers,
    fun k q h' => (a3 k q h').keep h.toKeepsAnswers, h.passQ.trans hp, List.sublist_nil.mp (hs ▸ h.scanQ), h.offered.trans hf,
    h.events.trans he, fun k => ?_⟩
  obtain ⟨k1, k2, k3⟩ := hk k
  refine ⟨h.lanes k k1, (h.desc k).trans k2, ?_, fun hno => (hout k (mt (ho k).mp hno)).trans k3⟩
  by_cases hl : (f.surf k).life = .attached
  · exact hin k ((ho k).mpr hl)
  · exact h.lives k (k3 ▸ hl)

theorem Fabric.mem_attachedSurfaces (f : Fabric) (k : Fin 8) : k ∈ f.attachedSurfaces ↔ (f.surf k).life = .attached := by
  unfold Fabric.attachedSurfaces
  rw [List.mem_filter, decide_eq_true_iff]
  exact ⟨fun h => h.2, fun h => ⟨mem_allSurfaces k, h⟩⟩

theorem exec_reset {s : State} (ht : s.Takes 0x7F []) (hd : s.device = .running) : ∃ order : List (Fin 8),
    (∀ k, k ∈ order ↔ (s.surf k).life = .attached) ∧
    exec (.reset []) s = .next ((State.endReset { s with
      device := .resetting, freeCount := s.freeCount + 1,
      fab := ({ s.fab with events := [] } : Fabric).resetBy { s.env with running := false } order }).finish.replied .accepted []) := by
  refine ⟨pickOrder 8 (Config.surfaceOrder s.freeCount) ({ s.fab with events := [] } : Fabric).attachedSurfaces, fun k => ?_, ?_⟩
  · rw [(pickOrder_perm _ _ _).mem_iff, Fabric.mem_attachedSurfaces]
    exact Iff.rfl
  · exact exec_row_running (c := .reset) ht rfl hd

/-- RESETTING ends at once where no tag is ISSUED (R186). -/
theorem State.endReset_cases (s : State) (hd : s.device = .resetting) : ∃ d es,
    s.endReset = { s with device := d, fab := { s.fab with events := es } } ∧
    (countTags s.tags TagEntry.isIssued = 0 ∧ d = .running ∧
        es = appendEvent s.fab.events { kind := .resetDone, surface := 0xFF, pipe := 0xFF, buffer := 0xFF, seq := 0, detail := 0,
                                        stamp := s.timebase } ∨
      countTags s.tags TagEntry.isIssued ≠ 0 ∧ d = .resetting ∧ es = s.fab.events) := by
  unfold State.endReset
  by_cases h : countTags s.tags TagEntry.isIssued = 0
  · rw [if_pos ⟨hd, h⟩]
    exact ⟨_, _, rfl, .inl ⟨h, rfl, rfl⟩⟩
  · rw [if_neg fun h' => h h'.2]
    exact ⟨.resetting, s.fab.events, by rw [← hd], .inr ⟨h, rfl, rfl⟩⟩

/-- Settles O5. -/
theorem resetTaken : Obligations.ResetTaken := by
  intro s hd hoff ht
  obtain ⟨order, horder, hexec⟩ := exec_reset ht hd
  obtain ⟨a1, a2, a3, hp, hq, ho, he, hk⟩ := ({ s.fab with events := [] } : Fabric).resetBy_spec
    (env := { s.env with running := false }) rfl (order := order) horder
  generalize ({ s.fab with events := [] } : Fabric).resetBy { s.env with running := false } order = G at *
  obtain ⟨d, es, hend, hdev⟩ := State.endReset_cases
    { s with device := .resetting, freeCount := s.freeCount + 1, fab := G } rfl
  rw [hend] at hexec
  have hfin := State.finish_with { s with device := d, freeCount := s.freeCount + 1 } { G with events := es }
  have hpast := ({ G with events := es } : Fabric).past_finish
    ({ s with device := d, freeCount := s.freeCount + 1 } : State).env
  have hquiet := Fabric.finish_quiet (g := { G with events := es })
    ({ s with device := d, freeCount := s.freeCount + 1 } : State).env (ho.trans hoff) fun k => .inl (hk k).2.2.1
  generalize ({ G with events := es } : Fabric).finish ({ s with device := d, freeCount := s.freeCount + 1 } : State).env = F at *
  replace hexec := hexec.trans (congrArg (fun t : State =>
    (Host.Outcome.next (t.replied .accepted []) : Host.Outcome State Fault Refusal)) hfin)
  obtain ⟨qe, qp, qs⟩ := hquiet
  have hkeep : G.KeepsAnswers F := (Fabric.SameBooks.answers (f := G) (g := { G with events := es }) ⟨rfl, rfl⟩).trans hpast.toKeepsAnswers
  refine ⟨_, hexec, rfl, ?_, qp.trans hp, List.sublist_nil.mp (hq ▸ qs), fun e h => State.aborted_iff.mpr ((a1 e h).keep hkeep),
    fun e h => State.aborted_iff.mpr ((a2 e h).keep hkeep), fun k q h => State.aborted_iff.mpr ((a3 k q h).keep hkeep),
    fun k => ?_, rfl, rfl, rfl, rfl, rfl, rfl, rfl, rfl⟩
  · rcases hdev with ⟨h0, rfl, rfl⟩ | ⟨h0, rfl, rfl⟩
    · rw [if_pos (show countTags s.tags TagEntry.isIssued = 0 from h0)]
      exact ⟨rfl, qe.trans (by rw [he]; rfl)⟩
    · rw [if_neg (show countTags s.tags TagEntry.isIssued ≠ 0 from h0)]
      exact ⟨rfl, qe.trans he⟩
  · obtain ⟨k1, k2, k3, k4⟩ := hk k
    have hU := (hpast.surf k k3).rest
    refine ⟨(congrArg Surface.lane hU).trans k1, (congrArg Surface.desc hU).trans k2, fun h => k3 ((congrArg Surface.life hU).symm.trans h),
      fun h => (congrArg Surface.life hU).trans (k4 ?_)⟩
    rcases h with h | h <;> exact fun h' => absurd (h.symm.trans h') nofun

end Sys2Proof.Machine

/-! # The end of an access: the tag, RESETTING, and what the part does next (R159, R162, R186) -/

namespace Sys2Proof.Machine

set_option Elab.async false

/-! ## The tag -/

/-- The part after the access of tag `k` has ended: `f` is the fabric that the completion leaves, `e` the entry of the tag. -/
def State.afterTag (s : State) (k : Fin 32) (e : TagEntry) (f : Fabric) (fc : Nat) : State :=
  (({ s with fab := f, freeCount := fc } : State).setTag k e).endReset.finish

theorem exec_response {s : State} {k : Fin 32} (hi : (s.tag k).st = .issued) (code : DownCode) (data : List Byte) :
    exec (.downstreamResponse k code data) s = .next (s.afterTag k TagEntry.cleared
      (s.fab.complete s.env s.tables (s.tag k) k (s.responseEnd (s.tag k) code data))
      (s.freeCount + (s.wanted (s.tag k) - data.length))) := by
  refine congrArg Host.Outcome.next ?_
  rw [State.respond, hi]
  rfl

theorem exec_expiry {s : State} {k : Fin 32} (h : s.Expired k) :
    exec (.tagTimeout k) s = .next (s.afterTag k { s.tag k with st := .quarantined, upRef := none }
      (s.fab.complete s.env s.tables (s.tag k) k .timeout) s.freeCount) := by
  change Host.Outcome.next (if s.due k then _ else _) = _
  rw [if_pos (State.due_iff.mpr h)]
  rfl

theorem countTags_eq_zero {tags : Vector TagEntry 32} {p : TagEntry → Bool} :
    countTags tags p = 0 ↔ ∀ j : Fin 32, p (tags.get j) = false := by
  unfold countTags
  rw [List.countP_eq_zero]
  constructor
  · intro h j
    exact Bool.eq_false_iff.mpr (h _ (by simp [Vector.get, ← Vector.getElem_toList]))
  · intro h e he
    obtain ⟨n, hn, rfl⟩ := List.getElem_of_mem he
    rw [Vector.length_toList] at hn
    have := h ⟨n, hn⟩
    simpa [Vector.get] using this

/-- With the entry no longer ISSUED, no tag is ISSUED exactly when the tag was the only one. -/
theorem State.issued_zero_iff (s : State) (k : Fin 32) {e : TagEntry} (he : e.st ≠ .issued) :
    countTags (s.setTag k e).tags TagEntry.isIssued = 0 ↔ ∀ j, j ≠ k → (s.tag j).st ≠ .issued := by
  rw [countTags_eq_zero]
  have each : ∀ j, TagEntry.isIssued ((s.setTag k e).tags.get j) = false ↔ (j ≠ k → (s.tag j).st ≠ .issued) := fun j => by
    change decide (((s.setTag k e).tag j).st = .issued) = false ↔ _
    rw [decide_eq_false_iff_not]
    by_cases h : j = k
    · subst h
      rw [State.tag_setTag_same]
      exact ⟨fun _ h => absurd rfl h, fun _ => he⟩
    · rw [State.tag_setTag_other _ _ (Ne.symm h)]
      exact ⟨fun h' _ => h', fun h' => h' h⟩
  exact forall_congr' each

/-- The end of an access changes the tag, the fabric and, with the last ISSUED tag of a RESETTING device, the device. -/
theorem State.afterTag_cases (s : State) (k : Fin 32) {e : TagEntry} (he : e.st ≠ .issued) (f : Fabric) (fc : Nat) : ∃ d es,
    s.afterTag k e f fc = { s with
      device := d, freeCount := fc, tags := s.tags.set k.val e k.isLt,
      fab := ({ f with events := es } : Fabric).finish { s.env with running := decide (d = .running) } } ∧
    (s.LastOfReset k ∧ d = .running ∧ es = appendEvent f.events s.resetDone ∨ ¬ s.LastOfReset k ∧ d = s.device ∧ es = f.events) := by
  have hiff := State.issued_zero_iff { s with fab := f, freeCount := fc } k he
  unfold State.afterTag State.endReset
  by_cases h : s.LastOfReset k
  · refine ⟨.running, appendEvent f.events s.resetDone, ?_, .inl ⟨h, rfl, rfl⟩⟩
    rw [if_pos ⟨h.1, hiff.mpr h.2⟩]
    exact State.finish_eq _
  · refine ⟨s.device, f.events, ?_, .inr ⟨h, rfl, rfl⟩⟩
    rw [if_neg fun h' => h ⟨h'.1, hiff.mp h'.2⟩]
    exact State.finish_eq _

/-- What the end of an access leaves outside the fabric. -/
theorem State.afterTag_outside (s : State) (k : Fin 32) {e : TagEntry} (he : e.st ≠ .issued) (f : Fabric) (fc : Nat) :
    (s.afterTag k e f fc).tag k = e ∧ (∀ j, j ≠ k → (s.afterTag k e f fc).tag j = s.tag j) ∧
      (s.afterTag k e f fc).issued = s.issued ∧
      ({ s with device := (s.afterTag k e f fc).device } : State).SameElsewhere (s.afterTag k e f fc) ∧
      (s.LastOfReset k → (s.afterTag k e f fc).device = .running) ∧
      (¬ s.LastOfReset k → (s.afterTag k e f fc).device = s.device) := by
  obtain ⟨d, es, h, hd⟩ := s.afterTag_cases k he f fc
  rw [h]
  generalize ({ f with events := es } : Fabric).finish _ = F
  refine ⟨s.tag_setTag_same k e, fun j hj => s.tag_setTag_other e (Ne.symm hj), rfl, ⟨rfl, rfl, rfl, rfl, rfl, rfl, rfl, rfl, rfl⟩,
    fun hl => ?_, fun hl => ?_⟩
  · rcases hd with ⟨-, h, -⟩ | ⟨h, -⟩
    · exact h
    · exact absurd hl h
  · rcases hd with ⟨h, -⟩ | ⟨-, h, -⟩
    · exact absurd h hl
    · exact h

theorem State.not_lastOfReset {s : State} (hd : s.device = .running) (k : Fin 32) : ¬ s.LastOfReset k := fun h =>
  absurd (hd.symm.trans h.1) nofun

/-- In RUNNING the end of an access is what the fabric makes of it. -/
theorem State.afterTag_running {s : State} (hd : s.device = .running) (k : Fin 32) {e : TagEntry} (he : e.st ≠ .issued) (f : Fabric)
    (fc : Nat) : s.afterTag k e f fc = { s with freeCount := fc, tags := s.tags.set k.val e k.isLt, fab := f.finish s.env } := by
  obtain ⟨d, es, h, hl⟩ := s.afterTag_cases k he f fc
  rcases hl with ⟨hl, -⟩ | ⟨-, rfl, rfl⟩
  · exact absurd hl (State.not_lastOfReset hd k)
  · rw [h]
    rfl

end Sys2Proof.Machine

/-! # What the end of an access leaves of its surface, before the tests of the buffers (R86, R159, R160, R162) -/

namespace Sys2Proof.Machine

set_option Elab.async false

/-! ## The surface and the records -/

/-- The buffer that a failed access of a surface damages (R160). -/
def Fabric.damagedBy (f : Fabric) (e : TagEntry) (b : Nat) (w : Worst) : Option Nat :=
  match w, e.kind with
  | .okay, _ | _, .pass | _, .producerRead | _, .scanoutRead => none
  | _, .producerWrite | _, .mergeRead | _, .mergeWrite => some b
  | _, .copyRead | _, .copyWrite =>
    (f.copy.slots.find? (fun c => decide (e.route = .chunk c.id))).map (fun c => c.target)

/-- The records that name the tag of a failed access (R160, R162, R165). -/
def Fabric.tagRecords (f : Fabric) (now : Word) (e : TagEntry) (k : Fin 32) (i : Fin 8) (b : Nat) (w : Worst) : List EventRecord :=
  let record := fun kind : EventKind => ({
    kind := kind, surface := BitVec.ofNat 8 i.val, pipe := idByte e.pipe, buffer := BitVec.ofNat 8 b,
    seq := BitVec.ofNat 32 ((f.surf i).buf b).content, detail := BitVec.ofNat 16 k.val, stamp := now } : EventRecord)
  match w, e.kind with
  | .timeout, _ => [record .tagTimeout]
  | .fault, .producerWrite | .fault, .mergeRead | .fault, .mergeWrite => [record .writeFault]
  | .fault, .producerRead | .fault, .scanoutRead => [record .readFault]
  | _, _ => []

/-- The record of a failed chunk that is an orphan (R147, R148, R152). -/
def Fabric.chunkRecords (f : Fabric) (now : Word) (e : TagEntry) (i : Fin 8) (w : Worst) : List EventRecord :=
  match w, e.kind, f.copy.slots.find? (fun c => decide (e.route = .chunk c.id)) with
  | .okay, _, _ => []
  | _, .copyRead, some c | _, .copyWrite, some c =>
    [{ kind := .copyFault, surface := BitVec.ofNat 8 i.val, pipe := (f.surf i).desc.pipe, buffer := BitVec.ofNat 8 c.target,
       seq := BitVec.ofNat 32 ((f.surf i).buf c.target).content, detail := BitVec.ofNat 16 c.stripe, stamp := now }]
  | _, _, _ => []

/-- The surface with one buffer damaged, the count of an access into `b` lowered and its merge gone. -/
def Surface.accessEnded (su : Surface) (e : TagEntry) (b : Nat) (damaged : Option Nat) : Surface :=
  { su with
    bufs := su.bufs.mapIdx (fun n x =>
      let x := if damaged = some n then { x with damaged := true } else x
      if n = b then x.counted e.kind else x)
    merges := if e.kind = .mergeRead ∨ e.kind = .mergeWrite then su.merges.filter (fun m => !decide (e.route = .merge m.id))
      else su.merges }

/-! ## What one stage changes -/

/-- Of the fabric, surface `i` has become `su`, records have been appended, and chunks may have left the engine; other surfaces
and the copy jobs are as they were. -/
structure Fabric.Alters (i : Fin 8) (f g : Fabric) (su : Surface) (new : List EventRecord) : Prop where
  surf : g.surf i = su
  others : ∀ k, k ≠ i → g.surf k = f.surf k
  offered : g.offered = f.offered
  passQ : g.passQ = f.passQ
  scanQ : g.scanQ = f.scanQ
  queue : g.copy.queue = f.copy.queue
  events : g.events = new.foldl appendEvent f.events

section
variable {i : Fin 8} {f g h : Fabric} {su su' : Surface} {new new' : List EventRecord}

theorem Fabric.Alters.trans (a : Fabric.Alters i f g su new) (b : Fabric.Alters i g h su' new') :
    Fabric.Alters i f h su' (new ++ new') where
  surf := b.surf
  others k hk := (b.others k hk).trans (a.others k hk)
  offered := b.offered.trans a.offered
  passQ := b.passQ.trans a.passQ
  scanQ := b.scanQ.trans a.scanQ
  queue := b.queue.trans a.queue
  events := by rw [b.events, a.events, List.foldl_append]

theorem Fabric.Alters.then (a : Fabric.Alters i f g su new) (b : Fabric.Alters i g h su' []) : Fabric.Alters i f h su' new := by
  have := a.trans b
  rwa [List.append_nil] at this

theorem Fabric.alters_refl (f : Fabric) (i : Fin 8) : Fabric.Alters i f f (f.surf i) [] := ⟨rfl, fun _ _ => rfl, rfl, rfl, rfl, rfl, rfl⟩

theorem Fabric.alters_modSurf (f : Fabric) (i : Fin 8) (op : Surface → Surface) :
    Fabric.Alters i f (f.modSurf i op) (op (f.surf i)) [] :=
  ⟨f.surf_modSurf_same i op, fun _ hk => f.surf_modSurf_other op (Ne.symm hk), rfl, rfl, rfl, rfl, rfl⟩

theorem Fabric.alters_log (f : Fabric) (i : Fin 8) (env : Env) (kind : EventKind) (su p b : Option Nat) (q d : Nat) :
    Fabric.Alters i f (f.log env kind su p b q d) (f.surf i)
      [{ kind := kind, surface := idByte su, pipe := idByte p, buffer := idByte b, seq := BitVec.ofNat 32 q,
         detail := BitVec.ofNat 16 d, stamp := env.now }] :=
  ⟨rfl, fun _ _ => rfl, rfl, rfl, rfl, rfl, rfl⟩

theorem Fabric.alters_partEnded (f : Fabric) (i : Fin 8) (id : Nat) (w : Worst) (op : List Byte → List Byte) :
    Fabric.Alters i f (f.partEnded id w op) (f.surf i) [] := by
  rw [f.partEnded_rest id w op]
  exact ⟨rfl, fun _ _ => rfl, rfl, rfl, rfl, rfl, rfl⟩

theorem Fabric.Alters.jobOf (a : Fabric.Alters i f g su new) {k : Fin 8} (hk : k ≠ i) (b : Nat) : g.jobOf k b = f.jobOf k b := by
  unfold Fabric.jobOf
  rw [a.queue, a.others k hk]

theorem Fabric.Alters.surfaceRests (a : Fabric.Alters i f g su new) {k : Fin 8} (hk : k ≠ i) :
    g.surfaceRests k = f.surfaceRests k :=
  Fabric.surfaceRests_congr (a.others k hk) (a.jobOf hk)

end

/-! ## The stages of a completion -/

/-- A completion before the tests of the buffers (R159, R162). -/
def Fabric.beforeTests (f : Fabric) (env : Env) (tb : Tables) (e : TagEntry) (t : Fin 32) (res : AccessEnd) : Fabric :=
  (((f.deliver tb e res).failureEffects env e t res).countDown e).chunkEnded e res

theorem Fabric.complete_eq (f : Fabric) (env : Env) (tb : Tables) {e : TagEntry} {i : Fin 8} (hs : e.surface = some i) (t : Fin 32)
    (res : AccessEnd) : f.complete env tb e t res = (f.beforeTests env tb e t res).bufferTests env i := by
  unfold Fabric.complete
  dsimp only
  rw [hs]
  rfl

/-- A part of an upstream request. -/
def OwnerKind.isPart (k : OwnerKind) : Prop := k = .producerWrite ∨ k = .producerRead ∨ k = .scanoutRead

section
variable {f : Fabric} {env : Env} {tb : Tables} {e : TagEntry} {t : Fin 32} {res : AccessEnd} {i : Fin 8} {b : Nat}
  (hs : e.surface = some i) (hb : e.buffer = some b)
include hs hb

theorem Fabric.entrySeq_eq (g : Fabric) : g.entrySeq e = ((g.surf i).buf b).content := by
  unfold Fabric.entrySeq
  rw [hs, hb]

/-- The record that names the tag. -/
theorem Fabric.alters_logTag (g : Fabric) (kind : EventKind) : Fabric.Alters i g (g.logTag env kind e t (g.entrySeq e)) (g.surf i) [{
    kind := kind, surface := BitVec.ofNat 8 i.val, pipe := idByte e.pipe, buffer := BitVec.ofNat 8 b,
    seq := BitVec.ofNat 32 ((g.surf i).buf b).content, detail := BitVec.ofNat 16 t.val, stamp := env.now }] := by
  rw [Fabric.entrySeq_eq hs hb g]
  unfold Fabric.logTag
  rw [hs, hb]
  exact g.alters_log i env kind _ _ _ _ _

theorem Fabric.alters_logFailure (g : Fabric) : Fabric.Alters i g (g.logFailure env e t res) (g.surf i)
    (g.tagRecords env.now e t i b res.worst) := by
  unfold Fabric.logFailure Fabric.tagRecords
  cases res with
  | okay data => cases e.kind <;> exact g.alters_refl i
  | timeout => exact Fabric.alters_logTag hs hb g .tagTimeout
  | error =>
    cases e.kind with
    | producerWrite | mergeRead | mergeWrite => exact Fabric.alters_logTag hs hb g .writeFault
    | producerRead | scanoutRead => exact Fabric.alters_logTag hs hb g .readFault
    | pass | copyRead | copyWrite => exact g.alters_refl i

end

/-- A buffer damaged, if any. -/
def Surface.damage (su : Surface) : Option Nat → Surface
  | some n => su.modBuf n (fun r => { r with damaged := true })
  | none => su

theorem Surface.damage_rest (su : Surface) (d : Option Nat) : su.damage d = { su with bufs := (su.damage d).bufs } := by
  cases d <;> rfl

theorem Surface.damage_bufs (su : Surface) (d : Option Nat) (n : Nat) : (su.damage d).bufs[n]? =
    (su.bufs[n]?).map (fun x => if d = some n then { x with damaged := true } else x) := by
  cases d with
  | none => simp [Surface.damage]
  | some m =>
    unfold Surface.damage
    rw [Surface.bufs_modBuf]
    by_cases h : m = n
    · simp [h]
    · simp [h]

theorem Surface.content_of_bufs {su su' : Surface} {n : Nat} (h : (su'.bufs[n]?).map (·.content) = (su.bufs[n]?).map (·.content)) :
    (su'.buf n).content = (su.buf n).content := by
  unfold Surface.buf
  cases h1 : su'.bufs[n]? <;> cases h2 : su.bufs[n]? <;> simp_all [List.getD]

theorem Surface.content_damage (su : Surface) (d : Option Nat) (n : Nat) : ((su.damage d).buf n).content = (su.buf n).content := by
  refine Surface.content_of_bufs ?_
  rw [Surface.damage_bufs, Option.map_map]
  refine congrArg (fun g => Option.map g _) (funext fun x => ?_)
  simp only [Function.comp_apply]
  split <;> rfl

theorem Fabric.chunkOf_eq (f : Fabric) (e : TagEntry) :
    f.chunkOf e = f.copy.slots.find? (fun c => decide (e.route = .chunk c.id)) := by
  unfold Fabric.chunkOf
  cases hr : e.route with
  | chunk id =>
    refine congrArg (fun p => List.find? p f.copy.slots) (funext fun c => ?_)
    rw [Bool.eq_iff_iff, beq_iff_eq, decide_eq_true_iff, Route.chunk.injEq, eq_comm]
  | nowhere | bytes | pixels | merge => exact (List.find?_eq_none.mpr fun _ _ => by simp).symm

section
variable {f : Fabric} {env : Env} {e : TagEntry} {t : Fin 32} {res : AccessEnd} {i : Fin 8} {b : Nat}
  (hs : e.surface = some i) (hb : e.buffer = some b)
include hs hb

theorem Fabric.alters_damageOf (g : Fabric) (hw : res.worst ≠ .okay) :
    Fabric.Alters i g (g.damageOf e) ((g.surf i).damage (g.damagedBy e b res.worst)) [] ∧ (g.damageOf e).copy = g.copy := by
  have hd : g.damagedBuffer e = g.damagedBy e b res.worst := by
    unfold Fabric.damagedBuffer Fabric.damagedBy
    rw [g.chunkOf_eq e, hb]
    cases res with
    | okay data => exact absurd rfl hw
    | error | timeout => cases e.kind <;> rfl
  unfold Fabric.damageOf
  rw [hs, hd]
  cases g.damagedBy e b res.worst with
  | none => exact ⟨g.alters_refl i, rfl⟩
  | some n => exact ⟨g.alters_modSurf i _, rfl⟩

/-- The effects of a failed access; a failed chunk is an orphan. -/
theorem Fabric.alters_failureEffects (g : Fabric)
    (hc : e.kind = .copyRead ∨ e.kind = .copyWrite → ∃ c, g.chunkOf e = some c ∧ c.surface = i ∧ c.orphan = true) :
    Fabric.Alters i g (g.failureEffects env e t res) ((g.surf i).damage (g.damagedBy e b res.worst))
      (g.tagRecords env.now e t i b res.worst ++ g.chunkRecords env.now e i res.worst) ∧
    (g.failureEffects env e t res).copy = g.copy := by
  rw [g.failureEffects_eq]
  by_cases hw : res.worst = .okay
  · cases res with
    | okay data =>
      refine ⟨?_, rfl⟩
      have h1 : g.damagedBy e b (AccessEnd.okay data).worst = none := by unfold Fabric.damagedBy; rfl
      rw [h1]
      have h2 : g.tagRecords env.now e t i b (AccessEnd.okay data).worst = [] := by
        unfold Fabric.tagRecords; cases e.kind <;> rfl
      rw [h2]
      exact g.alters_refl i
    | error | timeout => cases hw
  · obtain ⟨a1, c1⟩ := Fabric.alters_damageOf hs hb g hw
    have hf : res.failed = true := by cases res <;> first | rfl | exact absurd rfl hw
    rw [if_pos hf]
    have a2 := Fabric.alters_logFailure (env := env) (t := t) (res := res) hs hb (g.damageOf e)
    have c2 : ((g.damageOf e).logFailure env e t res).copy = (g.damageOf e).copy := by
      unfold Fabric.logFailure
      split <;> rfl
    have hrec : (g.damageOf e).tagRecords env.now e t i b res.worst = g.tagRecords env.now e t i b res.worst := by
      unfold Fabric.tagRecords
      rw [a1.surf, Surface.content_damage]
    rw [hrec] at a2
    have a12 : Fabric.Alters i g ((g.damageOf e).logFailure env e t res) ((g.surf i).damage (g.damagedBy e b res.worst))
        (g.tagRecords env.now e t i b res.worst) := a1.surf ▸ a1.trans a2
    have c12 := c2.trans c1
    generalize (g.damageOf e).logFailure env e t res = h at *
    have hchunk : h.chunkOf e = g.chunkOf e := by unfold Fabric.chunkOf; rw [c12]
    by_cases hk : e.kind = .copyRead ∨ e.kind = .copyWrite
    · obtain ⟨c, hcs, rfl, ho⟩ := hc hk
      have hcf : h.copyFaultOf env e = h.logSurf env .copyFault c.surface (some c.target)
          ((h.surf c.surface).buf c.target).content c.stripe := by
        have : h.copyFaultOf env e = h.copyFault env c := by
          unfold Fabric.copyFaultOf
          rw [hchunk, hcs]
          rcases hk with hk | hk <;> rw [hk]
        rw [this]
        unfold Fabric.copyFault Fabric.reportsCopyFault
        rw [ho]
        rfl
      have hcr : g.chunkRecords env.now e c.surface res.worst = [{
          kind := .copyFault, surface := BitVec.ofNat 8 c.surface.val, pipe := (g.surf c.surface).desc.pipe,
          buffer := BitVec.ofNat 8 c.target, seq := BitVec.ofNat 32 ((g.surf c.surface).buf c.target).content,
          detail := BitVec.ofNat 16 c.stripe, stamp := env.now }] := by
        unfold Fabric.chunkRecords
        rw [← g.chunkOf_eq e, hcs]
        rcases hk with hk | hk <;> rw [hk] <;> cases res <;> first | rfl | exact absurd rfl hw
      have a3 := h.alters_log c.surface env .copyFault (some c.surface.val) (some (h.surf c.surface).desc.pipe.toNat) (some c.target)
        ((h.surf c.surface).buf c.target).content c.stripe
      have hpipe : idByte (some (h.surf c.surface).desc.pipe.toNat) = (g.surf c.surface).desc.pipe := by
        rw [a12.surf, Surface.damage_rest]
        exact (BitVec.ofNat_toNat ..).trans (BitVec.setWidth_eq _)
      rw [hcf, hcr]
      rw [hpipe, a12.surf, Surface.content_damage] at a3
      refine ⟨?_, c12⟩
      unfold Fabric.logSurf
      rw [a12.surf, Surface.content_damage]
      exact a12.trans a3
    · have hcf : h.copyFaultOf env e = h := by
        unfold Fabric.copyFaultOf
        split
        · next hk' _ => exact absurd (.inl hk') hk
        · next hk' _ => exact absurd (.inr hk') hk
        · rfl
      have hcr : g.chunkRecords env.now e i res.worst = [] := by
        unfold Fabric.chunkRecords
        split
        · rfl
        · next hk' _ _ => exact absurd (.inl hk') hk
        · next hk' _ _ => exact absurd (.inr hk') hk
        · rfl
      rw [hcf, hcr, List.append_nil]
      exact ⟨a12, c12⟩

end

end Sys2Proof.Machine

/-! # The end of an access of a surface, before the tests of the buffers (R159) -/

namespace Sys2Proof.Machine

set_option Elab.async false

/-- An access of tag entry `e` into buffer `b` of surface `i` whose end leaves nothing of its owner: a merge that makes no further
write, an orphan chunk, or a part of a request. -/
structure Fabric.AccessEnds (f : Fabric) (e : TagEntry) (i : Fin 8) (b : Nat) (res : AccessEnd) : Prop where
  surface : e.surface = some i
  buffer : e.buffer = some b
  notPass : e.kind ≠ .pass
  merge : e.kind = .mergeRead ∨ e.kind = .mergeWrite → ∃ id m, e.route = .merge id ∧
    (f.surf i).merges.find? (fun m => m.id == id) = some m ∧ m.buf = b ∧ (res.worst ≠ .okay ∨ m.noWrite = true ∨ m.st ≠ .reading)
  chunk : e.kind = .copyRead ∨ e.kind = .copyWrite → ∃ c, f.chunkOf e = some c ∧ c.surface = i ∧ c.orphan = true

theorem Surface.mergeEnded_ends {su : Surface} (tb : Tables) {id : Nat} {res : AccessEnd} {m : Merge}
    (hm : su.merges.find? (fun m => m.id == id) = some m) (he : res.worst ≠ .okay ∨ m.noWrite = true ∨ m.st ≠ .reading) :
    su.mergeEnded tb id res = su.endMerge m := by
  unfold Surface.mergeEnded
  rw [hm]
  dsimp only
  split
  · next _ hst =>
    rcases he with h | h | h
    · exact absurd rfl h
    · rw [if_pos h]
    · exact absurd hst h
  · rfl

/-- The surface once the damage, the count and the merge of an access have been taken, by its buffers. -/
theorem Surface.accessEnded_of {su su' : Surface} {e : TagEntry} {b : Nat} {d : Option Nat}
    (hrest : su' = { su with bufs := su'.bufs, merges := (su.accessEnded e b d).merges })
    (hbufs : ∀ n : Nat, su'.bufs[n]? = (su.bufs[n]?).map (fun x =>
      if n = b then (if d = some n then { x with damaged := true } else x : BufRec).counted e.kind
      else if d = some n then { x with damaged := true } else x)) : su' = su.accessEnded e b d := by
  have h : su'.bufs = (su.accessEnded e b d).bufs := List.ext_getElem? fun n => by
    rw [hbufs, Surface.accessEnded, List.getElem?_mapIdx]
  rw [hrest, h]
  rfl

theorem BufRec.countDown_of {kind : OwnerKind} (hk : kind ≠ .mergeRead ∧ kind ≠ .mergeWrite) (x : BufRec) :
    x.countDown kind = x.counted kind := by
  cases kind <;> first | rfl | exact absurd rfl hk.1 | exact absurd rfl hk.2

theorem BufRec.countDown_merge {kind : OwnerKind} (hk : kind = .mergeRead ∨ kind = .mergeWrite) (x : BufRec) :
    x.countDown kind = x := by
  rcases hk with rfl | rfl <;> rfl

theorem Fabric.failureEffects_books (f : Fabric) (env : Env) (e : TagEntry) (t : Fin 32) (res : AccessEnd) :
    (f.failureEffects env e t res).records = f.records ∧ (f.failureEffects env e t res).sent = f.sent := by
  have hd : (f.damageOf e).records = f.records ∧ (f.damageOf e).sent = f.sent := by
    unfold Fabric.damageOf
    split <;> exact ⟨rfl, rfl⟩
  have hl : ∀ g : Fabric, (g.logFailure env e t res).records = g.records ∧ (g.logFailure env e t res).sent = g.sent := fun g => by
    unfold Fabric.logFailure
    split <;> exact ⟨rfl, rfl⟩
  have hc : ∀ (g : Fabric) (c : Chunk), (g.copyFault env c).records = g.records ∧ (g.copyFault env c).sent = g.sent := fun g c => by
    unfold Fabric.copyFault
    split
    · dsimp only
      split <;> exact ⟨rfl, rfl⟩
    · exact ⟨rfl, rfl⟩
  rw [f.failureEffects_eq]
  split
  · unfold Fabric.copyFaultOf
    split
    · exact ⟨(hc _ _).1.trans ((hl _).1.trans hd.1), (hc _ _).2.trans ((hl _).2.trans hd.2)⟩
    · exact ⟨(hc _ _).1.trans ((hl _).1.trans hd.1), (hc _ _).2.trans ((hl _).2.trans hd.2)⟩
    · exact ⟨(hl _).1.trans hd.1, (hl _).2.trans hd.2⟩
  · exact ⟨rfl, rfl⟩

section
variable {f : Fabric} {env : Env} {tb : Tables} {e : TagEntry} {t : Fin 32} {res : AccessEnd} {i : Fin 8} {b : Nat}

/-- The count falls, and an orphan chunk leaves its slot. -/
theorem Fabric.alters_countDown (g : Fabric) (hs : e.surface = some i) (hb : e.buffer = some b)
    (hc : e.kind = .copyRead ∨ e.kind = .copyWrite → ∃ c, g.chunkOf e = some c ∧ c.orphan = true) :
    Fabric.Alters i g ((g.countDown e).chunkEnded e res) ((g.surf i).modBuf b (fun r => r.countDown e.kind)) [] ∧
      ((g.countDown e).chunkEnded e res).records = g.records ∧ ((g.countDown e).chunkEnded e res).sent = g.sent := by
  have h1 : g.countDown e = g.modSurf i (fun su => su.modBuf b (fun r => r.countDown e.kind)) := by
    unfold Fabric.countDown
    rw [hs, hb]
    rfl
  rw [h1]
  have a1 := g.alters_modSurf i (fun su => su.modBuf b (fun r => r.countDown e.kind))
  have hchunk : (g.modSurf i (fun su => su.modBuf b (fun r => r.countDown e.kind))).chunkOf e = g.chunkOf e := rfl
  have hr : (g.modSurf i (fun su => su.modBuf b (fun r => r.countDown e.kind))).records = g.records ∧
    (g.modSurf i (fun su => su.modBuf b (fun r => r.countDown e.kind))).sent = g.sent := ⟨rfl, rfl⟩
  generalize g.modSurf i (fun su => su.modBuf b (fun r => r.countDown e.kind)) = h at *
  have hend : ∀ c : Chunk, c.orphan = true → Fabric.Alters i h (h.endChunk c) (h.surf i) [] ∧ (h.endChunk c).records = h.records ∧
      (h.endChunk c).sent = h.sent := fun c ho => by
    unfold Fabric.endChunk
    dsimp only
    rw [if_pos ho]
    exact ⟨⟨rfl, fun _ _ => rfl, rfl, rfl, rfl, rfl, rfl⟩, rfl, rfl⟩
  have key : Fabric.Alters i h (h.chunkEnded e res) (h.surf i) [] ∧ (h.chunkEnded e res).records = h.records ∧
      (h.chunkEnded e res).sent = h.sent := by
    by_cases hk : e.kind = .copyRead ∨ e.kind = .copyWrite
    · obtain ⟨c, hcs, ho⟩ := hc hk
      have he : h.chunkEnded e res = h.endChunk c := by
        unfold Fabric.chunkEnded
        rw [hchunk, hcs]
        rcases hk with hk | hk <;> rw [hk]
        dsimp only
        cases res with
        | okay data => exact if_pos ho
        | error | timeout => rfl
      rw [he]
      exact hend c ho
    · have he : h.chunkEnded e res = h := by
        unfold Fabric.chunkEnded
        split
        · next hk' _ => exact absurd (.inl hk') hk
        · next hk' _ => exact absurd (.inr hk') hk
        · rfl
      rw [he]
      exact ⟨h.alters_refl i, rfl, rfl⟩
  exact ⟨a1.then (a1.surf ▸ key.1), key.2.1.trans hr.1, key.2.2.trans hr.2⟩

/-- The delivery of an access that ends. -/
theorem Fabric.alters_deliver (he : f.AccessEnds e i b res) : ∃ su, Fabric.Alters i f (f.deliver tb e res) su [] ∧
    (f.deliver tb e res).copy = f.copy ∧
    su = { f.surf i with bufs := su.bufs, merges := ((f.surf i).accessEnded e b none).merges } ∧
    ∀ n : Nat, su.bufs[n]? = ((f.surf i).bufs[n]?).map (fun x =>
      if n = b ∧ (e.kind = .mergeRead ∨ e.kind = .mergeWrite) then x.counted e.kind else x) := by
  by_cases hk : e.kind = .mergeRead ∨ e.kind = .mergeWrite
  · obtain ⟨id, m, hroute, hm, rfl, hends⟩ := he.merge hk
    have hid : m.id = id := by simpa using List.find?_some hm
    have hd : f.deliver tb e res = f.modSurf i (fun su => su.mergeEnded tb id res) := by
      unfold Fabric.deliver
      rw [he.surface, hroute]
      rcases hk with hk | hk <;> rw [hk]
    rw [hd]
    refine ⟨_, f.alters_modSurf i _, rfl, ?_, fun n => ?_⟩
    · have hfilter : (f.surf i).merges.filter (fun q => q.id != m.id) =
          (f.surf i).merges.filter (fun q => !decide (Route.merge id = .merge q.id)) := by
        refine List.filter_congr fun q _ => ?_
        rw [← hid, bne, beq_eq_decide]
        simp only [Route.merge.injEq, eq_comm]
      rw [Surface.mergeEnded_ends tb hm hends, Surface.accessEnded, if_pos hk, hroute, ← hfilter]
      rfl
    · rw [Surface.mergeEnded_ends tb hm hends, Surface.endMerge, Surface.bufs_modBuf]
      have hcount : ∀ x : BufRec, x.counted e.kind = { x with merges := x.merges - 1 } := fun x => by
        rcases hk with hk | hk <;> rw [hk] <;> rfl
      by_cases h : m.buf = n
      · subst h
        simp only [hk, and_true, if_true, hcount]
      · simp [h, Ne.symm h]
  · have hb : Fabric.Alters i f (f.deliver tb e res) (f.surf i) [] ∧ (f.deliver tb e res).copy = f.copy := by
      have hbooks : Fabric.Alters i f (match e.upRef with
            | some id => f.partEnded id res.worst (f.areaWriter e res)
            | none => f) (f.surf i) [] ∧ (match e.upRef with
            | some id => f.partEnded id res.worst (f.areaWriter e res)
            | none => f).copy = f.copy := by
        split
        · next id _ => exact ⟨f.alters_partEnded i id _ _, by rw [f.partEnded_rest id]⟩
        · exact ⟨f.alters_refl i, rfl⟩
      unfold Fabric.deliver
      cases hkind : e.kind with
      | pass => exact absurd hkind he.notPass
      | producerWrite | producerRead | scanoutRead => exact hbooks
      | mergeRead => exact absurd (.inl hkind) hk
      | mergeWrite => exact absurd (.inr hkind) hk
      | copyRead | copyWrite => exact ⟨f.alters_refl i, rfl⟩
    refine ⟨f.surf i, hb.1, hb.2, ?_, fun n => ?_⟩
    · rw [Surface.accessEnded, if_neg hk]
    · simp [hk]

/-- The whole completion, before the tests of the buffers. -/
theorem Fabric.alters_beforeTests (he : f.AccessEnds e i b res) :
    Fabric.Alters i f (f.beforeTests env tb e t res) ((f.surf i).accessEnded e b (f.damagedBy e b res.worst))
      (f.tagRecords env.now e t i b res.worst ++ f.chunkRecords env.now e i res.worst) ∧
    (f.beforeTests env tb e t res).records = (f.deliver tb e res).records ∧
    (f.beforeTests env tb e t res).sent = (f.deliver tb e res).sent := by
  obtain ⟨su, a1, c1, hrest, hbufs⟩ := Fabric.alters_deliver (tb := tb) he
  unfold Fabric.beforeTests
  generalize f.deliver tb e res = g at *
  have hchunk : g.chunkOf e = f.chunkOf e := by unfold Fabric.chunkOf; rw [c1]
  obtain ⟨a2, c2⟩ := Fabric.alters_failureEffects (env := env) (t := t) (res := res) he.surface he.buffer g fun hk => by
    rw [hchunk]
    exact he.chunk hk
  have hbooks : (g.failureEffects env e t res).records = g.records ∧ (g.failureEffects env e t res).sent = g.sent :=
    g.failureEffects_books env e t res
  have hcontent : ∀ n, (su.buf n).content = ((f.surf i).buf n).content := fun n => by
    refine Surface.content_of_bufs ?_
    rw [hbufs, Option.map_map]
    refine congrArg (fun g => Option.map g _) (funext fun x => ?_)
    simp only [Function.comp_apply]
    split
    · next h => rcases h.2 with h | h <;> rw [h] <;> rfl
    · rfl
  have hdam : g.damagedBy e b res.worst = f.damagedBy e b res.worst := by unfold Fabric.damagedBy; rw [c1]
  have htag : g.tagRecords env.now e t i b res.worst = f.tagRecords env.now e t i b res.worst := by
    unfold Fabric.tagRecords
    rw [a1.surf, hcontent]
  have hchunks : g.chunkRecords env.now e i res.worst = f.chunkRecords env.now e i res.worst := by
    unfold Fabric.chunkRecords
    have hdesc : su.desc = (f.surf i).desc := by rw [hrest]
    simp only [c1, a1.surf, hcontent, hdesc]
  rw [a1.surf, hdam, htag, hchunks] at a2
  generalize g.failureEffects env e t res = h at *
  obtain ⟨a3, r3, s3⟩ := Fabric.alters_countDown (res := res) h he.surface he.buffer fun hk => by
    obtain ⟨c, hc, -, ho⟩ := he.chunk hk
    exact ⟨c, by unfold Fabric.chunkOf at hc ⊢; rw [c2, c1]; exact hc, ho⟩
  rw [a2.surf] at a3
  refine ⟨?_, r3.trans hbooks.1, s3.trans hbooks.2⟩
  have hall := (a1.trans a2).then a3
  rw [List.nil_append] at hall
  refine (?_ : _ = (f.surf i).accessEnded e b (f.damagedBy e b res.worst)) ▸ hall
  refine Surface.accessEnded_of ?_ fun n => ?_
  · change ({ su.damage (f.damagedBy e b res.worst) with bufs := _ } : Surface) = _
    rw [Surface.damage_rest, hrest]
    rfl
  · rw [Surface.bufs_modBuf, Surface.damage_bufs, hbufs]
    by_cases h : b = n
    · subst h
      rw [if_pos rfl, Option.map_map, Option.map_map]
      refine congrArg (fun g => Option.map g _) (funext fun x => ?_)
      simp only [Function.comp_apply, if_true, true_and]
      by_cases hk : e.kind = .mergeRead ∨ e.kind = .mergeWrite
      · rw [if_pos hk, BufRec.countDown_merge hk]
        rcases hk with hk | hk <;> rw [hk] <;> split <;> rfl
      · rw [if_neg hk, BufRec.countDown_of ⟨fun h => hk (.inl h), fun h => hk (.inr h)⟩]
    · rw [if_neg h, Option.map_map]
      refine congrArg (fun g => Option.map g _) (funext fun x => ?_)
      simp [Ne.symm h]

end

end Sys2Proof.Machine

/-! # The end of an access of a DETACHING surface (R33, R39, R186) -/

namespace Sys2Proof.Machine

set_option Elab.async false

/-! ## A part that finds nothing to do but a claim and the engine's work -/

/-- With an empty lane, or none of its own, a surface does nothing but stamp its merge claim, and so does the part. -/
theorem Fabric.finish_idle {g : Fabric} {i : Fin 8} (env : Env) (ho : g.offered = []) (hs : ∀ k, k ≠ i → g.surfaceRests k = true)
    (hq : g.scansRest = true) (hi : (g.surf i).lane = [] ∨ (g.surf i).life ≠ .attached) :
    (g.finish env).events = g.events ∧ (g.finish env).records = g.records ∧ (g.finish env).sent = g.sent ∧
      (g.finish env).surf i =
        { g.surf i with merges := ((g.finish env).surf i).merges, deferred := ((g.finish env).surf i).deferred } ∧
      ((g.finish env).surf i).merges.map Merge.unstamped = (g.surf i).merges.map Merge.unstamped ∧
      ((g.finish env).surf i).merges = ((g.presentMerge i).surf i).merges := by
  have hset := Fabric.settle_of_others env i hs hq
  have hp : Fabric.settleSurface env g i = g.presentMerge i := by
    rw [Fabric.settleSurface, Fabric.runLane_of_rests g env i (hi.imp_right .inl)]
  rw [hp] at hset
  obtain ⟨-, h2, h3, h4, h5, h6⟩ := g.presentMerge_spec i
  have hb := g.beside_presentMerge i
  generalize g.presentMerge i = p at *
  have hengine := Fabric.sameButJobs_runEngine 5 p
  rw [Fabric.finish_of_settle env hset (by rw [Fabric.runEngine_offered, hb.offered, ho])]
  generalize Fabric.runEngine 5 p = F at *
  refine ⟨by rw [hengine.rest]; exact h2, by rw [hengine.rest]; exact h3, by rw [hengine.rest]; exact h4, ?_, ?_, ?_⟩
  · rw [hengine.surf i, h5]
  · rw [hengine.surf i]
    exact h6
  · rw [hengine.surf i]

/-! ## DETACHING surfaces -/

theorem Surface.released_accessEnded (su : Surface) (e : TagEntry) (b : Nat) (d : Option Nat) :
    (su.accessEnded e b d).released.bufs = su.bufs.mapIdx (fun n x =>
      let x := if d = some n then { x with damaged := true } else x
      (if n = b then x.counted e.kind else x).tested) := by
  refine List.ext_getElem? fun n => ?_
  rw [Surface.released, List.getElem?_map, Surface.accessEnded, List.getElem?_mapIdx, List.getElem?_mapIdx, Option.map_map]
  refine congrArg (fun g => Option.map g _) (funext fun x => ?_)
  exact BufRec.release_eq _

theorem State.Draining.accessEnds {s : State} {k : Fin 32} {i : Fin 8} {b : Nat} (h : s.Draining k i b) (res : AccessEnd) :
    s.fab.AccessEnds (s.tag k) i b res := by
  obtain ⟨-, -, hs, hb, hk, -, -, hm, hc⟩ := h
  refine ⟨hs, hb, hk, fun hk => ?_, fun hk => ?_⟩
  · obtain ⟨id, m, h1, h2, h3, h4⟩ := hm hk
    refine ⟨id, m, h1, h2, h3, .inr (h4.imp_right fun h => ?_)⟩
    rw [h]
    nofun
  · obtain ⟨id, c, h1, h2, h3, h4⟩ := hc hk
    refine ⟨c, ?_, h3, h4⟩
    unfold Fabric.chunkOf
    rw [h1]
    exact h2

/-- The end of an access of a DETACHING surface, answered or expired. -/
theorem State.drainDecided {s : State} {k : Fin 32} {i : Fin 8} {b : Nat} (h : s.Draining k i b) (res : AccessEnd) {e : TagEntry}
    (he : e.st ≠ .issued) (fc : Nat) :
    s.DrainDecided (s.afterTag k e (s.fab.complete s.env s.tables (s.tag k) k res) fc) k i b res.worst := by
  have hends := h.accessEnds res
  obtain ⟨hr, -, hs, -, -, hl, hcl, -⟩ := h
  obtain ⟨ho, hrs, hq, -⟩ := Fabric.rests_iff.mp hr
  obtain ⟨a, -, -⟩ := Fabric.alters_beforeTests (env := s.env) (tb := s.tables) (t := k) hends
  rw [Fabric.complete_eq s.fab s.env s.tables hs k res]
  generalize s.fab.beforeTests s.env s.tables (s.tag k) k res = B at *
  have hcase := B.bufferTests_detaching s.env i (by rw [a.surf]; exact hl) (by rw [a.surf]; exact hcl)
  have hb := B.beside_bufferTests i s.env
  generalize B.bufferTests s.env i = C at *
  obtain ⟨d, es, hafter, hdev⟩ := s.afterTag_cases k he C fc
  have hidle := Fabric.finish_idle (g := { C with events := es }) (i := i) { s.env with running := decide (d = .running) }
    (hb.offered.trans (a.offered.trans ho)) (fun k' hk' => (hb.surfaceRests hk').trans ((a.surfaceRests hk').trans (hrs k')))
    (by unfold Fabric.scansRest at hq ⊢; rw [show ({ C with events := es } : Fabric).scanQ = s.fab.scanQ from hb.scanQ.trans a.scanQ]; exact hq)
    (.inr (by rcases hcase with ⟨h, -⟩ | ⟨h, -⟩ <;> (change (C.surf i).life ≠ _; rw [h]; nofun)))
  rw [hafter]
  generalize ({ C with events := es } : Fabric).finish { s.env with running := decide (d = .running) } = F at *
  obtain ⟨f1, -, -, f4, f5, -⟩ := hidle
  unfold State.DrainDecided
  intro e su record chunk damaged faults bufs merges ends detached
  have hbufs : (B.surf i).released.bufs = bufs := by
    rw [a.surf]
    exact Surface.released_accessEnded _ _ _ _
  have hmerges : (B.surf i).released.merges = merges := by
    rw [a.surf]
    rfl
  have hiff : (B.surf i).released.Drained ↔ ends := by
    unfold Surface.Drained
    rw [hbufs, hmerges]
  have hfaults : B.events = faults.foldl appendEvent s.fab.events := a.events
  have hrun : s.env.running = true ↔ s.device = .running := decide_eq_true_iff
  have hdesc : (B.surf i).desc = su.desc := by rw [a.surf]; rfl
  have hpipe : BitVec.ofNat 8 (B.surf i).desc.pipe.toNat = su.desc.pipe := by
    rw [hdesc]
    exact (BitVec.ofNat_toNat ..).trans (BitVec.setWidth_eq _)
  have hsurf : (C.surf i).life = (if ends then .defined else .detaching) ∧ (C.surf i).desc = su.desc ∧
      (C.surf i).bufs = (if ends then [] else bufs) ∧ (C.surf i).merges = merges ∧
      C.events = (faults ++ detached).foldl appendEvent s.fab.events := by
    rw [List.foldl_append, ← hfaults]
    rcases hcase with ⟨h1, h2, h3, h4⟩ | ⟨h1, h2, h3, h4⟩
    · rw [if_pos (hiff.mp h2), if_pos (hiff.mp h2), h3, h4, hpipe]
      refine ⟨rfl, hdesc, rfl, hmerges, ?_⟩
      by_cases hd : s.device = .running
      · rw [if_pos (hrun.mpr hd), show detached = _ from if_pos ⟨hiff.mp h2, hd⟩]
        rfl
      · rw [if_neg (mt hrun.mp hd), show detached = _ from if_neg fun h => hd h.2]
        rfl
    · have hno := mt hiff.mpr h2
      rw [if_neg hno, if_neg hno, show detached = _ from if_neg fun h => hno h.1]
      exact ⟨h1, by rw [h3]; exact hdesc, by rw [h3]; exact hbufs, by rw [h3]; exact hmerges, h4⟩
  obtain ⟨s1, s2, s3, s4, s5⟩ := hsurf
  refine ⟨(congrArg Surface.life f4).trans s1, (congrArg Surface.desc f4).trans s2, (congrArg Surface.bufs f4).trans s3,
    f5.trans (congrArg (List.map Merge.unstamped) s4), ?_, f1.trans ?_⟩
  · rcases hdev with ⟨h, hd, -⟩ | ⟨h, hd, -⟩
    · exact hd.trans (if_pos h).symm
    · exact hd.trans (if_neg h).symm
  · rw [List.foldl_append, ← s5]
    rcases hdev with ⟨h, -, he⟩ | ⟨h, -, he⟩
    · rw [if_pos h]
      exact he
    · rw [if_neg h]
      exact he

end Sys2Proof.Machine

/-! # The end of an access whose end sets nothing else off, and the expiry of a tag (R17, R160, R162) -/

namespace Sys2Proof.Machine

set_option Elab.async false

/-! ## An access in flight ends -/

theorem BufRec.counted_st (x : BufRec) (kind : OwnerKind) : (x.counted kind).st = x.st := by cases kind <;> rfl

/-- A completion that leaves the surface ATTACHED with an empty lane and no CLOSING buffer: it is tested, and the part goes on. -/
theorem State.completed_idle {s : State} {k : Fin 32} {i : Fin 8} (hr : s.AtRest) (hd : s.device = .running)
    (hs : (s.tag k).surface = some i) {res : AccessEnd} {su : Surface} {new : List EventRecord}
    (a : Fabric.Alters i s.fab (s.fab.beforeTests s.env s.tables (s.tag k) k res) su new) (hl : su.life = .attached)
    (hlane : su.lane = []) (hcl : su.closing = []) {e : TagEntry} (he : e.st ≠ .issued) (fc : Nat) :
    let t := s.afterTag k e (s.fab.complete s.env s.tables (s.tag k) k res) fc
    t.fab.events = new.foldl appendEvent s.fab.events ∧
      t.fab.records = (s.fab.beforeTests s.env s.tables (s.tag k) k res).records ∧
      t.fab.sent = (s.fab.beforeTests s.env s.tables (s.tag k) k res).sent ∧
      t.surf i = { su.released with merges := (t.surf i).merges, deferred := (t.surf i).deferred } ∧
      (t.surf i).merges.map Merge.unstamped = su.merges.map Merge.unstamped ∧
      ∃ g : Fabric, g.surf i = su.released ∧ (t.surf i).merges = ((g.presentMerge i).surf i).merges := by
  obtain ⟨ho, hrs, hq, -⟩ := Fabric.rests_iff.mp hr
  dsimp only
  rw [State.afterTag_running hd k he, Fabric.complete_eq s.fab s.env s.tables hs k res]
  generalize s.fab.beforeTests s.env s.tables (s.tag k) k res = B at *
  rw [B.bufferTests_still s.env i (by rw [a.surf]; exact hl) fun c cs h => by
    rw [a.surf] at h
    exact absurd (h.symm.trans hcl) nofun]
  have hsurf := B.surf_released i
  rw [a.surf] at hsurf
  have hb := B.beside_modSurf i Surface.released
  have hidle := Fabric.finish_idle (g := B.modSurf i Surface.released) (i := i) s.env (a.offered.trans ho)
    (fun k' hk' => (hb.surfaceRests hk').trans ((a.surfaceRests hk').trans (hrs k')))
    (by unfold Fabric.scansRest at hq ⊢; rw [show (B.modSurf i Surface.released).scanQ = s.fab.scanQ from a.scanQ]; exact hq)
    (.inl (by rw [hsurf]; exact hlane))
  generalize (B.modSurf i Surface.released).finish s.env = F at *
  obtain ⟨f1, f2, f3, f4, f5, f6⟩ := hidle
  rw [hsurf] at f4 f5
  exact ⟨f1.trans a.events, f2, f3, f4, f5, _, hsurf, f6⟩

/-- What the end of an access in flight leaves of its owner, its surface and the records. -/
theorem State.InFlight.ends {s : State} {k : Fin 32} {i : Fin 8} {b : Nat} {r : BufRec} (h : s.InFlight k i b r) {res : AccessEnd}
    (hends : s.fab.AccessEnds (s.tag k) i b res) {e : TagEntry} (he : e.st ≠ .issued) (fc : Nat) :
    let t := s.afterTag k e (s.fab.complete s.env s.tables (s.tag k) k res) fc
    t.fab.events = (s.fab.tagRecords s.env.now (s.tag k) k i b res.worst ++
        s.fab.chunkRecords s.env.now (s.tag k) i res.worst).foldl appendEvent s.fab.events ∧
      t.fab.records = (s.fab.deliver s.tables (s.tag k) res).records ∧ t.fab.sent = (s.fab.deliver s.tables (s.tag k) res).sent ∧
      (t.surf i).bufs[b]? = some
        ((if s.fab.damagedBy (s.tag k) b res.worst = some b then { r with damaged := true } else r : BufRec).counted (s.tag k).kind) ∧
      (t.surf i).merges.map Merge.unstamped = ((s.surf i).accessEnded (s.tag k) b none).merges.map Merge.unstamped := by
  obtain ⟨hr, hd, -, hs, -, hl, hlane, hcl, hbr, hnd⟩ := h
  obtain ⟨a, hrec, hsent⟩ := Fabric.alters_beforeTests (env := s.env) (tb := s.tables) (t := k) hends
  obtain ⟨h1, h2, h3, h4, h5, -⟩ := State.completed_idle hr hd hs a hl hlane hcl he fc
  dsimp only
  generalize s.afterTag k e (s.fab.complete s.env s.tables (s.tag k) k res) fc = t at *
  refine ⟨h1, h2.trans hrec, h3.trans hsent, ?_, h5⟩
  refine (congrArg (fun su : Surface => su.bufs[b]?) h4).trans ?_
  change ((s.fab.surf i).accessEnded (s.tag k) b _).released.bufs[b]? = _
  rw [Surface.released_accessEnded, List.getElem?_mapIdx, show (s.fab.surf i).bufs[b]? = some r from hbr, Option.map_some]
  dsimp only
  rw [if_pos rfl]
  refine congrArg some (if_neg ?_)
  rw [BufRec.counted_st]
  split <;> exact hnd

theorem Fabric.accessEnds_part {f : Fabric} {e : TagEntry} {i : Fin 8} {b : Nat} (hs : e.surface = some i) (hb : e.buffer = some b)
    (hk : e.kind.isPart) (res : AccessEnd) : f.AccessEnds e i b res := by
  refine ⟨hs, hb, ?_, fun h => ?_, fun h => ?_⟩
  · rcases hk with h | h | h <;> rw [h] <;> nofun
  · rcases hk with h' | h' | h' <;> rw [h'] at h <;> rcases h with h | h <;> cases h
  · rcases hk with h' | h' | h' <;> rw [h'] at h <;> rcases h with h | h <;> cases h

/-- A part of a request ends: the record answers with the worst result, or waits with one part fewer. -/
theorem Fabric.partEnded_books {f : Fabric} {p : RespRecord} (hp : f.records.find? (fun q => q.id == p.id) = some p)
    (hi : 1 ≤ p.issued) (w : Worst) (g : List Byte → List Byte) :
    if p.issued = 1 ∧ p.mark = true then
      (f.partEnded p.id w g).sent = f.sent ++
        [{ tag := p.tag, code := (p.worst.join w).code,
           data := if p.kind = .read ∧ p.worst.join w = .okay then g p.data else [] }]
    else (f.partEnded p.id w g).sent = f.sent ∧ (f.partEnded p.id w g).records.find? (fun q => q.id == p.id) =
      some { p with issued := p.issued - 1, worst := p.worst.join w, data := g p.data } := by
  split
  · next h =>
    rw [Fabric.partEnded_of_last hp h.1 h.2]
    rfl
  · next h =>
    rw [Fabric.partEnded_of_more hp fun h' => h ⟨by omega, h'.2⟩]
    refine ⟨rfl, ?_⟩
    rw [Fabric.find?_modRecord f p.id
      (g := fun q => { q with issued := q.issued - 1, worst := q.worst.join w, data := g q.data }) (fun _ => rfl), hp]
    rfl

theorem Fabric.chunkRecords_part {f : Fabric} {now : Word} {e : TagEntry} {i : Fin 8} {w : Worst} (hk : e.kind.isPart) :
    f.chunkRecords now e i w = [] := by
  unfold Fabric.chunkRecords
  rcases hk with hk | hk | hk <;> rw [hk] <;> cases w <;> rfl

/-! ## Parts that fail -/

theorem State.partFails {s : State} {k : Fin 32} {i : Fin 8} {b : Nat} {r : BufRec} {p : RespRecord} (h : s.InFlight k i b r)
    (hu : (s.tag k).upRef = some p.id) (hp : s.fab.records.find? (fun q => q.id == p.id) = some p) (hi : 1 ≤ p.issued)
    (hk : (s.tag k).kind.isPart) {res : AccessEnd} {event : EventKind} {code : UpCode}
    (hres : res = .error ∧ event = (if (s.tag k).kind = .producerWrite then .writeFault else .readFault) ∧ code = .fault ∨
      res = .timeout ∧ event = .tagTimeout ∧ code = .timeout)
    {e : TagEntry} (he : e.st ≠ .issued) (fc : Nat) :
    s.PartFails (s.afterTag k e (s.fab.complete s.env s.tables (s.tag k) k res) fc) k i b r p event code := by
  obtain ⟨-, -, -, hs, hb, -⟩ := id h
  obtain ⟨h1, h2, h3, h4, -⟩ := h.ends (Fabric.accessEnds_part hs hb hk res) he fc
  generalize s.afterTag k e (s.fab.complete s.env s.tables (s.tag k) k res) fc = t at *
  rw [Fabric.deliver_part _ _ hu _ (.inr hk)] at h2 h3
  rw [Fabric.chunkRecords_part hk, List.append_nil] at h1
  have hbooks := Fabric.partEnded_books hp hi res.worst (s.fab.areaWriter (s.tag k) res)
  generalize s.fab.partEnded p.id res.worst (s.fab.areaWriter (s.tag k) res) = g at *
  have hworst : (p.worst.join res.worst).code = (if p.worst = .fault then .fault else code) ∧ p.worst.join res.worst ≠ .okay := by
    rcases hres with ⟨rfl, -, rfl⟩ | ⟨rfl, -, rfl⟩ <;> cases p.worst <;> exact ⟨rfl, nofun⟩
  have hfailed : res.worst = .fault ∨ res.worst = .timeout := by
    rcases hres with ⟨rfl, -⟩ | ⟨rfl, -⟩
    · exact .inl rfl
    · exact .inr rfl
  refine ⟨h4.trans ?_, h1.trans ?_, ?_⟩
  · unfold Fabric.damagedBy
    rcases hk with hk | hk | hk <;> rcases hfailed with hw | hw <;> rw [hk, hw] <;> simp [BufRec.counted]
  · have hcontent : ((s.fab.surf i).buf b).content = r.content := by
      obtain ⟨-, -, -, -, -, -, -, -, hbr, -⟩ := h
      exact congrArg BufRec.content (Surface.buf_of_some hbr)
    unfold Fabric.tagRecords
    rw [hcontent]
    rcases hres with ⟨rfl, rfl, -⟩ | ⟨rfl, rfl, -⟩ <;> rcases hk with hk | hk | hk <;> rw [hk] <;> rfl
  · split
    · next hone =>
      rw [if_pos hone] at hbooks
      have hdata : (if p.kind = .read ∧ p.worst.join res.worst = .okay then s.fab.areaWriter (s.tag k) res p.data else []) = [] :=
        if_neg fun h => hworst.2 h.2
      rw [h3, hbooks, hworst.1, hdata]
    · next hmore =>
      rw [if_neg hmore] at hbooks
      have hfind := hbooks.2
      rw [← h2] at hfind
      exact ⟨h3.trans hbooks.1, _, List.mem_of_find?_eq_some hfind, rfl, rfl, rfl, hworst.1⟩

/-! ## TAG_TIMEOUT -/

/-- The end of a pass-through access that leaves its part at rest. -/
theorem State.afterTag_pass {s : State} (hr : s.AtRest) (k : Fin 32) {e : TagEntry} (he : e.st ≠ .issued) {f : Fabric}
    (hf : f = { s.fab with records := f.records, sent := f.sent, events := f.events }) (fc : Nat) :
    (s.LastOfReset k → (s.afterTag k e f fc).fab.events = appendEvent f.events s.resetDone) ∧
      (¬ s.LastOfReset k → (s.afterTag k e f fc).fab.events = f.events) := by
  obtain ⟨d, es, h, hd⟩ := s.afterTag_cases k he f fc
  have hrest : ({ f with events := es } : Fabric).rests = true := by
    rw [hf]
    exact (Fabric.rests_congr (g := s.fab) rfl rfl rfl rfl).trans hr
  rw [Fabric.finish_of_rests _ _ hrest] at h
  rw [h]
  rcases hd with ⟨hl, -, rfl⟩ | ⟨hl, -, rfl⟩
  · exact ⟨fun _ => rfl, fun h => absurd hl h⟩
  · exact ⟨fun h => absurd h hl, fun _ => rfl⟩

theorem Fabric.deliver_pass (f : Fabric) (tb : Tables) {e : TagEntry} (hk : e.kind = .pass) (res : AccessEnd) :
    f.deliver tb e res = { f with records := (f.deliver tb e res).records, sent := (f.deliver tb e res).sent } := by
  unfold Fabric.deliver
  rw [hk]
  dsimp only
  split
  · exact f.partEnded_rest _ _ _
  · rfl

section
variable {s : State} {k : Fin 32}

theorem State.completePass_expired (hk : (s.tag k).kind = .pass) (hs : (s.tag k).surface = none) (hp : (s.tag k).pipe = none)
    (hb : (s.tag k).buffer = none) : s.fab.complete s.env s.tables (s.tag k) k .timeout =
    { s.fab.deliver s.tables (s.tag k) .timeout with
        events := appendEvent s.fab.events ({
          kind := .tagTimeout, surface := 0xFF, pipe := 0xFF, buffer := 0xFF, seq := 0, detail := BitVec.ofNat 16 k.val,
          stamp := s.timebase } : EventRecord) } := by
  have hd := s.fab.deliver_pass s.tables hk .timeout
  rw [Fabric.complete_pass _ _ _ hk hs]
  generalize s.fab.deliver s.tables (s.tag k) .timeout = g at *
  have hev : g.events = s.fab.events := by rw [hd]
  unfold Fabric.logFailure Fabric.logTag Fabric.log Fabric.entrySeq
  dsimp only
  rw [hs, hp, hb, hev]
  rfl

end

/-- Settles O57. -/
theorem tagExpires : Obligations.TagExpires := by
  intro s k
  have he : ({ s.tag k with st := .quarantined, upRef := none } : TagEntry).st ≠ .issued := nofun
  refine ⟨fun hx => ?_, fun i b hd hx => ?_, fun hr hdev hx hk hs hp hb => ?_, fun p hx hdev hr hk hs hp hb hu hf hone hm => ?_,
    fun i b r p hin hx hu hf hi hk => ?_, fun hx => ?_⟩
  · exact ⟨_, exec_expiry hx, s.afterTag_outside k he _ _⟩
  · exact ⟨_, exec_expiry hx, State.drainDecided hd .timeout he _⟩
  · refine ⟨_, exec_expiry hx, ?_⟩
    have hd := s.fab.deliver_pass s.tables hk .timeout
    rw [State.completePass_expired hk hs hp hb]
    refine State.afterTag_pass hr k he ?_ _
    generalize s.fab.deliver s.tables (s.tag k) .timeout = g at hd ⊢
    rw [hd]
  · rw [exec_expiry hx, State.completePass_expired hk hs hp hb, Fabric.deliver_part _ _ hu _ (.inl hk),
      Fabric.partEnded_of_last hf hone hm, State.afterTag_running hdev k he, Fabric.finish_of_rests]
    · have hanswer : RespRecord.answer { p with
          issued := 0, worst := p.worst.join AccessEnd.timeout.worst, data := s.fab.areaWriter (s.tag k) .timeout p.data } =
          { tag := p.tag, code := if p.worst = .fault then .fault else .timeout, data := [] } := by
        unfold RespRecord.answer
        cases p.worst <;> simp [AccessEnd.worst, Worst.join, Worst.rank, Worst.code]
      rw [hanswer]
      rfl
    · exact (Fabric.rests_congr (g := s.fab) rfl rfl rfl rfl).trans hr
  · exact ⟨_, exec_expiry hx, State.partFails hin hu hf hi hk (.inr ⟨rfl, rfl, rfl⟩) he _⟩
  · change Host.Outcome.next (if s.due k then _ else _) = _
    rw [if_neg (mt State.due_iff.mp hx)]

end Sys2Proof.Machine

/-! # The ends of a merge's read and write (R68, R70) -/

namespace Sys2Proof.Machine

set_option Elab.async false

/-- A merge claim of the first merge stamps that merge alone. -/
theorem Fabric.presentMerge_head {g : Fabric} {i : Fin 8} {m : Merge} {ms : List Merge} (hm : (g.surf i).merges = m :: ms)
    (ho : m.outstanding = true) (hne : ∀ x ∈ ms, x.id ≠ m.id) :
    ∃ n, ((g.presentMerge i).surf i).merges = { m with presented := n } :: ms := by
  have hfirst : (g.surf i).firstOutstanding = some m := by
    unfold Surface.firstOutstanding
    rw [hm, List.find?_cons, ho]
  unfold Fabric.presentMerge Surface.mergeClaim
  rw [hfirst]
  dsimp only
  by_cases hc : m.claims = true
  · rw [if_pos hc]
    dsimp only
    by_cases hp : m.presented.isNone = true
    · rw [if_pos hp]
      refine ⟨some g.nextStamp, ?_⟩
      rw [Fabric.surf_modSurf_same]
      change (g.surf i).merges.map _ = _
      rw [hm, List.map_cons, if_pos rfl]
      exact congrArg _ ((List.map_congr_left fun x hx => if_neg (hne x hx)).trans (List.map_id ms))
    · rw [if_neg hp]
      exact ⟨m.presented, hm⟩
  · rw [if_neg hc]
    exact ⟨m.presented, hm⟩

/-- The merges left by ids do not look at stamps. -/
theorem merges_ids {l l' : List Merge} (h : l.map Merge.unstamped = l'.map Merge.unstamped) {id : Nat} (hl : ∀ x ∈ l', x.id ≠ id) :
    ∀ x ∈ l, x.id ≠ id := by
  intro x hx he
  have hx' : x.unstamped ∈ l'.map Merge.unstamped := h ▸ List.mem_map_of_mem hx
  obtain ⟨y, hy, hxy⟩ := List.mem_map.mp hx'
  exact hl y hy ((congrArg Merge.id hxy).trans he)

section
variable {s : State} {k : Fin 32} {i : Fin 8} {m : Merge} {r : BufRec}

/-- A merge's access that ends the merge, answered or expired. -/
theorem State.mergeGone (h : s.InFlight k i m.buf r) (hk : (s.tag k).kind = .mergeRead ∨ (s.tag k).kind = .mergeWrite)
    (hroute : (s.tag k).route = .merge m.id) (hm : (s.surf i).merges.find? (fun x => x.id == m.id) = some m) {res : AccessEnd}
    (hends : res.worst ≠ .okay ∨ m.st ≠ .reading) {e : TagEntry} (he : e.st ≠ .issued) (fc : Nat) :
    let t := s.afterTag k e (s.fab.complete s.env s.tables (s.tag k) k res) fc
    (∀ x ∈ (t.surf i).merges, x.id ≠ m.id) ∧
      (t.surf i).bufs[m.buf]? = some { r with merges := r.merges - 1, damaged := r.damaged || decide (res.worst ≠ .okay) } ∧
      t.fab.events = (match res.worst with
        | .okay => s.fab.events
        | w => appendEvent s.fab.events
          { kind := if w = .timeout then .tagTimeout else .writeFault, surface := BitVec.ofNat 8 i.val, pipe := idByte (s.tag k).pipe,
            buffer := BitVec.ofNat 8 m.buf, seq := BitVec.ofNat 32 r.content, detail := BitVec.ofNat 16 k.val,
            stamp := s.timebase }) := by
  obtain ⟨-, -, -, hs, hb, -, -, -, hbr, -⟩ := id h
  have hae : s.fab.AccessEnds (s.tag k) i m.buf res :=
    { surface := hs
      buffer := hb
      notPass := by rcases hk with h | h <;> rw [h] <;> nofun
      merge := fun _ => ⟨m.id, m, hroute, hm, rfl, hends.imp_right .inr⟩
      chunk := fun h => by rcases hk with h' | h' <;> rw [h'] at h <;> rcases h with h | h <;> cases h }
  obtain ⟨h1, -, -, h4, h5⟩ := h.ends hae he fc
  dsimp only
  generalize s.afterTag k e (s.fab.complete s.env s.tables (s.tag k) k res) fc = t at *
  refine ⟨merges_ids h5 fun x hx he => ?_, h4.trans ?_, h1.trans ?_⟩
  · unfold Surface.accessEnded at hx
    dsimp only at hx
    rw [if_pos hk, List.mem_filter, hroute, he] at hx
    simp at hx
  · unfold Fabric.damagedBy
    rcases hk with hk | hk <;> rw [hk] <;> cases res <;> simp [BufRec.counted, AccessEnd.worst]
  · have hcontent : ((s.fab.surf i).buf m.buf).content = r.content := congrArg BufRec.content (Surface.buf_of_some hbr)
    have hcr : s.fab.chunkRecords s.env.now (s.tag k) i res.worst = [] := by
      unfold Fabric.chunkRecords
      rcases hk with hk | hk <;> rw [hk] <;> cases res <;> rfl
    rw [hcr, List.append_nil]
    unfold Fabric.tagRecords
    rw [hcontent]
    rcases hk with hk | hk <;> rw [hk] <;> cases res <;> rfl

/-- The answer OKAY to the read of the first merge: the merge holds the pixel it is to write. -/
theorem State.mergeFormed {ms : List Merge} {data : List Byte} (h : s.InFlight k i m.buf r) (hk : (s.tag k).kind = .mergeRead)
    (hroute : (s.tag k).route = .merge m.id) (hm : (s.surf i).merges = m :: ms) (hst : m.st = .reading) (hnw : m.noWrite = false)
    (hne : ∀ x ∈ ms, x.id ≠ m.id) {e : TagEntry} (he : e.st ≠ .issued) (fc : Nat) :
    let t := s.afterTag k e (s.fab.complete s.env s.tables (s.tag k) k (.okay data)) fc
    (∃ n, (t.surf i).merges =
      { m with formed := some (mergedPixel s.tables (s.surf i).desc m.bytes data), presented := n } :: ms) ∧
      t.fab.events = s.fab.events := by
  obtain ⟨hr, hd, -, hs, hb, hl, hlane, hcl, -, -⟩ := h
  have hended : (s.fab.surf i).mergeEnded s.tables m.id (.okay data) = (s.fab.surf i).modMerge m.id (fun q =>
      { q with formed := some (mergedPixel s.tables (s.surf i).desc m.bytes data) }) := by
    unfold Surface.mergeEnded
    rw [show (s.fab.surf i).merges = m :: ms from hm, List.find?_cons, beq_self_eq_true]
    dsimp only
    rw [hst]
    dsimp only
    rw [hnw]
    rfl
  have hdel : s.fab.deliver s.tables (s.tag k) (.okay data) = s.fab.modSurf i (fun su => su.mergeEnded s.tables m.id (.okay data)) := by
    unfold Fabric.deliver
    rw [hk, hs, hroute]
  have a1 := s.fab.alters_modSurf i (fun su => su.mergeEnded s.tables m.id (.okay data))
  have hfail : ∀ g : Fabric, g.failureEffects s.env (s.tag k) k (.okay data) = g := fun g => rfl
  have a : Fabric.Alters i s.fab (s.fab.beforeTests s.env s.tables (s.tag k) k (.okay data))
      (((s.fab.surf i).mergeEnded s.tables m.id (.okay data)).modBuf m.buf (fun r => r.countDown (s.tag k).kind)) [] := by
    unfold Fabric.beforeTests
    rw [hfail, hdel]
    generalize s.fab.modSurf i (fun su => su.mergeEnded s.tables m.id (.okay data)) = g at *
    obtain ⟨a2, -, -⟩ := Fabric.alters_countDown (res := .okay data) g hs hb fun h => by
      rw [hk] at h
      rcases h with h | h <;> cases h
    rw [a1.surf] at a2
    exact a1.then a2
  rw [hended] at a
  obtain ⟨h1, -, -, -, -, g, hg, h6⟩ := State.completed_idle hr hd hs a hl hlane hcl he fc
  dsimp only
  generalize s.afterTag k e (s.fab.complete s.env s.tables (s.tag k) k (.okay data)) fc = t at *
  refine ⟨?_, h1⟩
  have hmerges : (g.surf i).merges = { m with formed := some (mergedPixel s.tables (s.surf i).desc m.bytes data) } :: ms := by
    rw [hg]
    change (s.fab.surf i).merges.map _ = _
    rw [show (s.fab.surf i).merges = m :: ms from hm, List.map_cons, if_pos rfl]
    exact congrArg _ ((List.map_congr_left fun x hx => if_neg (hne x hx)).trans (List.map_id ms))
  obtain ⟨n, hn⟩ := Fabric.presentMerge_head hmerges (by simp [Merge.outstanding, hst]) hne
  exact ⟨n, h6.trans hn⟩

end

/-- Settles O54. -/
theorem mergeReadEnds : Obligations.MergeReadEnds := by
  refine ⟨fun s k i m ms r data h hk hroute hm hst hnw hf hne hlen => ?_, fun s k i m r code data h hk hroute hm hst => ?_⟩
  · have hfind : (s.surf i).merges.find? (fun x => x.id == m.id) = some m := by
      rw [hm, List.find?_cons, beq_self_eq_true]
    have hi := h.2.2.1
    have hq : ({ s.tag k with st := .quarantined, upRef := none } : TagEntry).st ≠ .issued := nofun
    refine ⟨?_, ?_, fun hx => ?_⟩
    · have hw : s.responseEnd (s.tag k) .okay data = .okay data := by
        have : s.wanted (s.tag k) = data.length := by
          rw [State.wanted, hk]
          dsimp only
          rw [hroute, hlen]
          rfl
        rw [State.responseEnd, this, readData_length]
      have hexec := exec_response hi .okay data
      rw [hw] at hexec
      obtain ⟨⟨n, h1⟩, h2⟩ := State.mergeFormed (data := data) (e := TagEntry.cleared) h hk hroute hm hst hnw hne nofun
        (s.freeCount + (s.wanted (s.tag k) - data.length))
      obtain ⟨o1, -, o2, -⟩ := s.afterTag_outside k (e := TagEntry.cleared) nofun
        (s.fab.complete s.env s.tables (s.tag k) k (.okay data)) (s.freeCount + (s.wanted (s.tag k) - data.length))
      exact ⟨_, _, hexec, h1, rfl, hst, rfl, rfl, h2, o1, o2⟩
    · obtain ⟨h1, h2, h3⟩ := State.mergeGone (res := .error) (e := TagEntry.cleared) h (.inl hk) hroute hfind (.inl nofun) nofun
        (s.freeCount + (s.wanted (s.tag k) - data.length))
      obtain ⟨o1, -, o2, -⟩ := s.afterTag_outside k (e := TagEntry.cleared) nofun
        (s.fab.complete s.env s.tables (s.tag k) k .error) (s.freeCount + (s.wanted (s.tag k) - data.length))
      exact ⟨_, exec_response hi .error data, h1, h2.trans (by simp [AccessEnd.worst]), h3, o1, o2⟩
    · obtain ⟨h1, h2, h3⟩ := State.mergeGone (res := .timeout) h (.inl hk) hroute hfind (.inl nofun) hq s.freeCount
      obtain ⟨o1, -, o2, -⟩ := s.afterTag_outside k hq (s.fab.complete s.env s.tables (s.tag k) k .timeout) s.freeCount
      exact ⟨_, exec_expiry hx, h1, h2.trans (by simp [AccessEnd.worst]), h3, o1, o2⟩
  · have hi := h.2.2.1
    obtain ⟨h1, h2, h3⟩ := State.mergeGone (res := s.responseEnd (s.tag k) code data) (e := TagEntry.cleared) h (.inr hk) hroute hm
      (.inr (by rw [hst]; nofun)) nofun (s.freeCount + (s.wanted (s.tag k) - data.length))
    obtain ⟨o1, -, o2, -⟩ := s.afterTag_outside k (e := TagEntry.cleared) nofun
      (s.fab.complete s.env s.tables (s.tag k) k (s.responseEnd (s.tag k) code data))
      (s.freeCount + (s.wanted (s.tag k) - data.length))
    refine ⟨_, exec_response hi code data, h1, h2.trans ?_, h3.trans ?_, o1, o2⟩
    · cases code <;> simp [State.responseEnd, AccessEnd.worst]
    · cases code <;> rfl

end Sys2Proof.Machine

/-! # Bytes of a response placed in a data area (R17, R72) -/

namespace Sys2Proof.Machine

set_option Elab.async false

theorem byteAt_set (l : List Byte) (n j : Nat) (b : Byte) (hj : j < l.length) :
    byteAt (l.set n b) j = if j = n then b else byteAt l j := by
  unfold byteAt
  by_cases h : j = n
  · subst h
    simp [hj]
  · simp [h, Ne.symm h]

theorem length_writeAt (l : List Byte) (pos : Nat) (bs : List Byte) : (writeAt l pos bs).length = l.length := by
  induction bs generalizing l pos with
  | nil => rfl
  | cons b bs ih => rw [writeAt, ih, List.length_set]

/-- The bytes of a part of a read in its place. -/
theorem byteAt_writeAt (l : List Byte) (pos : Nat) (bs : List Byte) {j : Nat} (hj : j < l.length) :
    byteAt (writeAt l pos bs) j = if pos ≤ j ∧ j < pos + bs.length then byteAt bs (j - pos) else byteAt l j := by
  induction bs generalizing l pos with
  | nil =>
    rw [writeAt, if_neg]
    simp only [List.length_nil]
    omega
  | cons b bs ih =>
    rw [writeAt, ih _ _ (by rwa [List.length_set]), byteAt_set _ _ _ _ hj, List.length_cons]
    by_cases h : pos + 1 ≤ j ∧ j < pos + 1 + bs.length
    · rw [if_pos h, if_pos (by omega)]
      obtain ⟨n, rfl⟩ : ∃ n, j = pos + (n + 1) := ⟨j - pos - 1, by omega⟩
      rw [show pos + (n + 1) - pos = n + 1 by omega, show pos + (n + 1) - (pos + 1) = n by omega]
      rfl
    · rw [if_neg h]
      by_cases h' : j = pos
      · subst h'
        rw [if_pos rfl, if_pos (by omega), Nat.sub_self]
        rfl
      · rw [if_neg h', if_neg (by omega)]

/-! ## Pixels of a producer READ -/

/-- One step of a pixel's bytes into the area. -/
def placeByte (first at' : Nat) (acc : List Byte) (x : Byte × Nat) : List Byte :=
  if first ≤ at' + x.2 then acc.set (at' + x.2 - first) x.1 else acc

theorem length_placeBytes (first at' n : Nat) (px area : List Byte) :
    ((px.zipIdx n).foldl (placeByte first at') area).length = area.length := by
  induction px generalizing n area with
  | nil => rfl
  | cons b px ih =>
    rw [List.zipIdx_cons, List.foldl_cons, ih, placeByte]
    split
    · exact List.length_set
    · rfl

theorem byteAt_placeBytes (first at' n : Nat) (px area : List Byte) {j : Nat} (hj : j < area.length) :
    byteAt ((px.zipIdx n).foldl (placeByte first at') area) j =
      if at' + n ≤ first + j ∧ first + j < at' + n + px.length then byteAt px (first + j - (at' + n)) else byteAt area j := by
  induction px generalizing n area with
  | nil =>
    rw [if_neg]
    · rfl
    · simp only [List.length_nil]
      omega
  | cons b px ih =>
    have hlen : j < (placeByte first at' area (b, n)).length := by
      have := length_placeBytes first at' n [b] area
      rw [show (([b].zipIdx n).foldl (placeByte first at') area) = placeByte first at' area (b, n) from rfl] at this
      omega
    have hplace : byteAt (placeByte first at' area (b, n)) j = if first + j = at' + n then b else byteAt area j := by
      unfold placeByte
      dsimp only
      split
      · rw [byteAt_set _ _ _ _ hj]
        refine if_congr ?_ rfl rfl
        omega
      · rw [if_neg (by omega)]
    rw [List.zipIdx_cons, List.foldl_cons, ih _ _ hlen, hplace, List.length_cons]
    by_cases h : at' + (n + 1) ≤ first + j ∧ first + j < at' + (n + 1) + px.length
    · rw [if_pos h, if_pos (by omega)]
      obtain ⟨d, hd⟩ : ∃ d, first + j = at' + n + (d + 1) := ⟨first + j - (at' + n) - 1, by omega⟩
      rw [hd, show at' + n + (d + 1) - (at' + n) = d + 1 by omega, show at' + n + (d + 1) - (at' + (n + 1)) = d by omega]
      rfl
    · rw [if_neg h]
      by_cases h' : first + j = at' + n
      · rw [if_pos h', if_pos (by omega), h', Nat.sub_self]
        rfl
      · rw [if_neg h', if_neg (by omega)]

theorem writePixel_eq (first bpp i : Nat) (area px : List Byte) :
    writePixel first bpp i area px = (px.zipIdx 0).foldl (placeByte first (i * bpp)) area := rfl

theorem length_reverse (d : Descriptor) (hf : d.fmt ≠ .f8) (st : List Byte) : (reverse d st).length = d.bpp := by
  unfold reverse Descriptor.bpp
  cases h : d.fmt with
  | f8 => exact absurd h hf
  | f16 => rfl
  | f24 | f32 => rfl

theorem Descriptor.bpp_pos (d : Descriptor) : 0 < d.bpp := by
  unfold Descriptor.bpp
  cases d.fmt <;> exact Nat.succ_pos _

/-- One pixel in the area: the bytes of the pixel that lie in the span. -/
theorem byteAt_writePixel {d : Descriptor} (hf : d.fmt ≠ .f8) (first i : Nat) (area st : List Byte) {j : Nat} (hj : j < area.length) :
    byteAt (writePixel first d.bpp i area (reverse d st)) j =
      if (first + j) / d.bpp = i then byteAt (reverse d st) ((first + j) % d.bpp) else byteAt area j := by
  have hpos := d.bpp_pos
  rw [writePixel_eq, byteAt_placeBytes _ _ _ _ _ hj, length_reverse d hf, Nat.add_zero]
  have hdm := Nat.div_add_mod (first + j) d.bpp
  have hmod := Nat.mod_lt (first + j) hpos
  by_cases h : (first + j) / d.bpp = i
  · rw [if_pos h]
    have hm : i * d.bpp = d.bpp * ((first + j) / d.bpp) := by rw [h, Nat.mul_comm]
    rw [if_pos (by omega), hm]
    congr 1
    omega
  · rw [if_neg h, if_neg]
    rintro ⟨h1, h2⟩
    refine h (Nat.div_eq_of_lt_le h1 ?_)
    rw [Nat.succ_mul]
    omega

theorem length_writePixels (d : Descriptor) (first : Nat) (xs : List Nat) (stored area : List Byte) :
    (writePixels d first (xs.map .index) stored area).length = area.length := by
  induction xs generalizing stored area with
  | nil => rfl
  | cons x xs ih =>
    rw [List.map_cons, writePixels, ih, writePixel_eq, length_placeBytes]

/-- The pixels of a READ part in the data area, each in its place. -/
theorem byteAt_writePixels {d : Descriptor} (hf : d.fmt ≠ .f8) (first : Nat) (xs : List Nat) (hn : xs.Nodup) (stored area : List Byte)
    {j : Nat} (hj : j < area.length) :
    (∀ n, xs[n]? = some ((first + j) / d.bpp) → byteAt (writePixels d first (xs.map .index) stored area) j =
      byteAt (reverse d ((stored.drop (4 * n)).take 4)) ((first + j) % d.bpp)) ∧
    ((first + j) / d.bpp ∉ xs → byteAt (writePixels d first (xs.map .index) stored area) j = byteAt area j) := by
  induction xs generalizing stored area with
  | nil => exact ⟨fun n h => absurd h (by simp), fun _ => rfl⟩
  | cons x xs ih =>
    obtain ⟨hx, hxs⟩ := List.nodup_cons.mp hn
    have hlen : j < (writePixel first d.bpp x area (reverse d (stored.take 4))).length := by
      rw [writePixel_eq, length_placeBytes]
      exact hj
    obtain ⟨h1, h2⟩ := ih hxs (stored.drop 4) _ hlen
    have hone := byteAt_writePixel hf first x area (stored.take 4) hj
    rw [List.map_cons, writePixels, show (PixelRef.index x).indexOf = x from rfl]
    refine ⟨fun n hnx => ?_, fun hno => ?_⟩
    · cases n with
      | zero =>
        obtain rfl : x = (first + j) / d.bpp := by simpa using hnx
        rw [h2 hx]
        exact hone.trans (if_pos rfl)
      | succ n =>
        rw [h1 n (by simpa using hnx), List.drop_drop, show 4 + 4 * n = 4 * (n + 1) by omega]
    · rw [List.mem_cons, not_or] at hno
      rw [h2 hno.2]
      exact hone.trans (if_neg hno.1)

end Sys2Proof.Machine

/-! # A downstream response (R159, R160) -/

namespace Sys2Proof.Machine

set_option Elab.async false

/-! ## Parts answered OKAY -/

theorem State.partEnds {s : State} {k : Fin 32} {i : Fin 8} {b : Nat} {r : BufRec} {p : RespRecord} (h : s.InFlight k i b r)
    (hu : (s.tag k).upRef = some p.id) (hp : s.fab.records.find? (fun q => q.id == p.id) = some p) (hi : 1 ≤ p.issued)
    (hk : (s.tag k).kind.isPart) (data : List Byte) {e : TagEntry} (he : e.st ≠ .issued) (fc : Nat) :
    s.PartEnds (s.afterTag k e (s.fab.complete s.env s.tables (s.tag k) k (.okay data)) fc) k i b r p
      (s.fab.areaWriter (s.tag k) (.okay data) p.data) := by
  obtain ⟨-, -, -, hs, hb, -⟩ := id h
  obtain ⟨h1, h2, h3, h4, -⟩ := h.ends (Fabric.accessEnds_part hs hb hk (.okay data)) he fc
  generalize s.afterTag k e (s.fab.complete s.env s.tables (s.tag k) k (.okay data)) fc = t at *
  rw [Fabric.deliver_part _ _ hu _ (.inr hk)] at h2 h3
  rw [Fabric.chunkRecords_part hk, List.append_nil] at h1
  have hbooks := Fabric.partEnded_books hp hi (AccessEnd.okay data).worst (s.fab.areaWriter (s.tag k) (.okay data))
  generalize s.fab.partEnded p.id (AccessEnd.okay data).worst (s.fab.areaWriter (s.tag k) (.okay data)) = g at *
  rw [show (AccessEnd.okay data).worst = .okay from rfl, Worst.join_okay] at hbooks
  refine ⟨h4.trans ?_, h1.trans ?_, ?_⟩
  · unfold Fabric.damagedBy
    rcases hk with hk | hk | hk <;> rw [hk] <;> rfl
  · unfold Fabric.tagRecords
    rcases hk with hk | hk | hk <;> rw [hk] <;> rfl
  · split
    · next hone =>
      rw [if_pos hone] at hbooks
      rw [h3, hbooks]
      cases p.worst <;> rfl
    · next hmore =>
      rw [if_neg hmore] at hbooks
      exact ⟨h3.trans hbooks.1, by rw [h2]; exact hbooks.2⟩

/-! ## A head that waits -/

/-- The test for release makes a buffer FREE or leaves its state. -/
theorem BufRec.tested_st_ne {x : BufRec} {st : BufState} (h : x.st ≠ st) (hf : st ≠ .free) : x.tested.st ≠ st := by
  unfold BufRec.tested
  split
  · next hd =>
    rcases x.unused_ne with h' | h'
    · exact fun he => hf (he.symm.trans h')
    · exact fun he => h (hd.trans (h'.symm.trans he))
  · exact h

section
variable {s : State} {k : Fin 32} {i : Fin 8} {b : Nat}

/-- A part answered OKAY while the lane head waits for a buffer: the head is decided again. -/
theorem State.decidedAfterPart (hr : s.AtRest) (hd : s.device = .running) (hs : (s.tag k).surface = some i)
    (hb : (s.tag k).buffer = some b) (hl : (s.surf i).life = .attached) (hq : (s.surf i).lane ≠ []) (hh : (s.surf i).head = .waiting)
    (hp : (s.surf i).closePending = false) (hbs : BuffersSafe (s.surf i)) (hls : ListsSafe (s.surf i)) (hk : (s.tag k).kind.isPart)
    (data : List Byte) {e : TagEntry} (he : e.st ≠ .issued) (fc : Nat) :
    (s.afterTag k e (s.fab.complete s.env s.tables (s.tag k) k (.okay data)) fc).HeadDecided i { s.surf i with
      bufs := (s.surf i).bufs.mapIdx (fun n x => (if n = b then x.counted (s.tag k).kind else x).tested) } false := by
  obtain ⟨a, -, -⟩ := Fabric.alters_beforeTests (env := s.env) (tb := s.tables) (t := k)
    (Fabric.accessEnds_part hs hb hk (.okay data))
  have hdam : s.fab.damagedBy (s.tag k) b (AccessEnd.okay data).worst = none := by
    unfold Fabric.damagedBy
    rfl
  rw [hdam] at a
  rw [State.afterTag_running hd k he, Fabric.complete_eq s.fab s.env s.tables hs k (.okay data)]
  generalize s.fab.beforeTests s.env s.tables (s.tag k) k (.okay data) = B at *
  have hBl : (B.surf i).life = .attached := by rw [a.surf]; exact hl
  have hrest := B.surf_bufferTests s.env i
  have hlife : ((B.bufferTests s.env i).surf i).life = .attached := by
    rw [B.bufferTests_attached s.env i hBl, Fabric.promoteReady_life, Fabric.surf_released]
    exact hBl
  have hlen : ((B.bufferTests s.env i).surf i).bufs.length = (s.surf i).bufs.length := by
    rw [B.bufferTests_attached s.env i hBl, Fabric.promoteReady_length, Fabric.surf_released, Surface.released, List.length_map, a.surf]
    exact List.length_mapIdx
  have hbufs := fun n x hx => B.bufferTests_bufs s.env i hBl (k := n) (x := x) hx
  have hbeside := B.beside_bufferTests i s.env
  generalize B.bufferTests s.env i = C at *
  rw [a.surf] at hbufs hrest
  have hmerges : ((s.surf i).accessEnded (s.tag k) b none).merges = (s.surf i).merges := by
    unfold Surface.accessEnded
    refine if_neg ?_
    rcases hk with h | h | h <;> rw [h] <;> rintro (h | h) <;> cases h
  obtain ⟨ho, hrs, hscan, -⟩ := Fabric.rests_iff.mp hr
  have hfin : C.finish s.env = Fabric.runEngine 5 (Fabric.settleSurface s.env C i) := by
    refine Fabric.finish_of_settle s.env (Fabric.settle_of_others s.env i (fun k' hk' =>
      (hbeside.surfaceRests hk').trans ((a.surfaceRests hk').trans (hrs k'))) ?_) ?_
    · unfold Fabric.scansRest at hscan ⊢
      rw [hbeside.scanQ, a.scanQ]
      exact hscan
    · rw [Fabric.runEngine_offered, (C.beside_settleSurface s.env i).offered, hbeside.offered, a.offered, ho]
  generalize C.finish s.env = F at *
  have hask : Surface.AsksAs { s.surf i with
      bufs := (s.surf i).bufs.mapIdx (fun n x => (if n = b then x.counted (s.tag k).kind else x).tested) } (C.surf i) false :=
    { counter := by rw [hrest]; rfl
      history := by rw [hrest]; rfl
      desc := by rw [hrest]; rfl
      lane := by rw [hrest]; rfl
      holdWait := by rw [hrest]; rfl
      present := nofun
      length := by rw [hlen]; exact List.length_mapIdx.symm
      bufs := fun n x hx => by
        rw [List.getElem?_mapIdx] at hx
        obtain ⟨x0, hx0, rfl⟩ := Option.map_eq_some_iff.mp hx
        have hin : ((s.surf i).accessEnded (s.tag k) b none).bufs[n]? = some (if n = b then x0.counted (s.tag k).kind else x0) := by
          rw [Surface.accessEnded, List.getElem?_mapIdx, hx0]
          rfl
        obtain ⟨y, hy, hcase⟩ := hbufs n _ hin
        refine ⟨y, hy, ?_⟩
        rcases hcase with rfl | ⟨hcl, rfl⟩
        · exact ⟨rfl, rfl, .inl rfl⟩
        · refine ⟨rfl, rfl, .inr ⟨?_, rfl⟩⟩
          have hst : x0.st = .closing := by
            have := (listsSafe_iff.mp hls).2.2.2 n hcl
            rw [Surface.states_getElem?, hx0] at this
            exact Option.some.inj this
          have hst' : (if n = b then x0.counted (s.tag k).kind else x0).st = .closing := by
            split
            · rw [BufRec.counted_st, hst]
            · exact hst
          rw [BufRec.tested, if_neg (by rw [hst']; nofun)]
          exact hst' }
  refine State.headDecided_of rfl hfin hask hlife (by rw [hrest]; exact hq) ?_ (by rw [hrest]; exact hp) (by rw [hrest]; exact hh)
  refine Surface.filling_none.mpr fun y hy => ?_
  obtain ⟨n, hn⟩ := List.mem_iff_getElem?.mp hy
  obtain ⟨x, hx, -, -, hst⟩ := hask.back hn
  have hnot : x.st ≠ .filling := by
    rw [List.getElem?_mapIdx] at hx
    obtain ⟨x0, hx0, rfl⟩ := Option.map_eq_some_iff.mp hx
    have h0 := Surface.filling_none.mp (Surface.filling_of_waiting hbs hh) x0 (List.mem_of_getElem? hx0)
    exact BufRec.tested_st_ne (by split <;> [rw [BufRec.counted_st]; skip] <;> exact h0) nofun
  rcases hst with h | ⟨-, h⟩
  · rw [h]
    exact hnot
  · rw [h]
    nofun

end

/-- A buffer that becomes READY appends FRAME_READY (R100, R108). -/
theorem Fabric.events_makeReady (f : Fabric) (env : Env) (i : Fin 8) {b : Nat} {x : BufRec} (hx : (f.surf i).bufs[b]? = some x) :
    (f.makeReady env i b).events = appendEvent f.events
      { kind := .frameReady, surface := BitVec.ofNat 8 i.val, pipe := (f.surf i).desc.pipe, buffer := BitVec.ofNat 8 b,
        seq := BitVec.ofNat 32 x.content, detail := if x.damaged then 1 else 0, stamp := env.now } := by
  unfold Fabric.makeReady
  dsimp only
  have hsurf := f.surf_modSurf_same i (fun su =>
    { su with closing := su.closing.erase b, present := su.present ++ [b] }.modBuf b (fun r => { r with st := .ready }))
  have hev : (f.modSurf i (fun su => { su with closing := su.closing.erase b, present := su.present ++ [b] }.modBuf b
    (fun r => { r with st := .ready }))).events = f.events := rfl
  generalize f.modSurf i (fun su => { su with closing := su.closing.erase b, present := su.present ++ [b] }.modBuf b
    (fun r => { r with st := .ready })) = g at *
  have hbuf : (g.surf i).buf b = { x with st := .ready } := by
    refine Surface.buf_of_some ?_
    rw [hsurf, Surface.bufs_modBuf, if_pos rfl]
    exact congrArg (Option.map _) hx
  have hpipe : idByte (some (g.surf i).desc.pipe.toNat) = (f.surf i).desc.pipe := by
    rw [hsurf]
    exact (BitVec.ofNat_toNat ..).trans (BitVec.setWidth_eq _)
  unfold Fabric.logSurf Fabric.log
  rw [hbuf, hpipe, hev]
  cases x.damaged <;> rfl

/-! ## The last parts of DRAINING and CLOSING buffers -/

section
variable {s : State} {k : Fin 32} {i : Fin 8} {b : Nat} {r : BufRec} (hr : s.AtRest) (hd : s.device = .running)
  (hs : (s.tag k).surface = some i) (hb : (s.tag k).buffer = some b) (hl : (s.surf i).life = .attached)
  (hlane : (s.surf i).lane = []) (hbr : (s.surf i).bufs[b]? = some r)
include hr hd hs hb hl hlane hbr

/-- An answered part changes its count and, through its owner, the records and responses alone. -/
theorem State.alters_part (hk : (s.tag k).kind.isPart) (data : List Byte) :
    Fabric.Alters i s.fab (s.fab.beforeTests s.env s.tables (s.tag k) k (.okay data)) ((s.surf i).accessEnded (s.tag k) b none) [] ∧
      ((s.surf i).accessEnded (s.tag k) b none).released.bufs[b]? = some (r.counted (s.tag k).kind).tested := by
  obtain ⟨a, -, -⟩ := Fabric.alters_beforeTests (env := s.env) (tb := s.tables) (t := k)
    (Fabric.accessEnds_part hs hb hk (.okay data))
  have hdam : s.fab.damagedBy (s.tag k) b (AccessEnd.okay data).worst = none := by
    unfold Fabric.damagedBy
    rfl
  have htag : s.fab.tagRecords s.env.now (s.tag k) k i b (AccessEnd.okay data).worst = [] := by
    unfold Fabric.tagRecords
    rcases hk with h | h | h <;> rw [h] <;> rfl
  rw [hdam, htag, Fabric.chunkRecords_part hk] at a
  refine ⟨a, ?_⟩
  rw [Surface.released_accessEnded, List.getElem?_mapIdx, hbr, Option.map_some]
  dsimp only
  rw [if_pos rfl]
  rfl

theorem State.drainingPart (hst : r.st = .draining) (hcl : (s.surf i).closing = []) (hk : (s.tag k).kind = .scanoutRead)
    (data : List Byte) {e : TagEntry} (he : e.st ≠ .issued) (fc : Nat) :
    ∃ r', ((s.afterTag k e (s.fab.complete s.env s.tables (s.tag k) k (.okay data)) fc).surf i).bufs[b]? = some r' ∧
      r'.scanReads = r.scanReads - 1 ∧ r'.content = r.content ∧
      (s.afterTag k e (s.fab.complete s.env s.tables (s.tag k) k (.okay data)) fc).fab.events = s.fab.events ∧
      r'.st = if r.prodWrites = 0 ∧ r.prodReads = 0 ∧ r.merges = 0 ∧ r.scanReads ≤ 1 ∧ r.copyReads = 0 ∧
        r.copyWrites = 0 ∧ r.hold = false then .free else .draining := by
  obtain ⟨a, hbuf⟩ := State.alters_part hr hd hs hb hl hlane hbr (.inr (.inr hk)) data
  obtain ⟨h1, -, -, h4, -⟩ := State.completed_idle hr hd hs a hl hlane hcl he fc
  have hafter := congrArg (fun su : Surface => su.bufs[b]?) h4
  refine ⟨_, hafter.trans hbuf, ?_, ?_, h1, ?_⟩
  · unfold BufRec.tested
    rw [hk]
    split <;> rfl
  · unfold BufRec.tested
    rw [hk]
    split <;> rfl
  · unfold BufRec.tested BufRec.unused BufRec.countsZero
    rw [hk, if_pos (show (r.counted .scanoutRead).st = .draining from hst)]
    refine if_congr ?_ rfl rfl
    simp only [BufRec.counted, Bool.and_eq_true, beq_iff_eq, Nat.sub_eq_zero_iff_le, and_assoc]

theorem State.closingPart (hst : r.st = .closing) (hcl : (s.surf i).closing = [b]) (hk : (s.tag k).kind = .producerWrite)
    (data : List Byte) {e : TagEntry} (he : e.st ≠ .issued) (fc : Nat) :
    let t := s.afterTag k e (s.fab.complete s.env s.tables (s.tag k) k (.okay data)) fc
    ∃ r', (t.surf i).bufs[b]? = some r' ∧ r'.prodWrites = r.prodWrites - 1 ∧ r'.content = r.content ∧
      if r.prodWrites ≤ 1 ∧ r.merges = 0 ∧ r.copyWrites = 0 ∧ s.fab.jobOf i b = none then
        r'.st = .ready ∧ (t.surf i).present = (s.surf i).present ++ [b] ∧ (t.surf i).closing = [] ∧
          t.fab.events = appendEvent s.fab.events
            { kind := .frameReady, surface := BitVec.ofNat 8 i.val, pipe := (s.surf i).desc.pipe,
              buffer := BitVec.ofNat 8 b, seq := BitVec.ofNat 32 r.content, detail := if r.damaged then 1 else 0,
              stamp := s.timebase }
      else r'.st = .closing ∧ (t.surf i).present = (s.surf i).present ∧ (t.surf i).closing = [b] ∧ t.fab.events = s.fab.events := by
  obtain ⟨a, hbuf⟩ := State.alters_part hr hd hs hb hl hlane hbr (.inl hk) data
  obtain ⟨ho, hrs, hq, -⟩ := Fabric.rests_iff.mp hr
  have hcounted : (r.counted (s.tag k).kind).tested = { r with prodWrites := r.prodWrites - 1 } := by
    rw [hk, BufRec.tested, if_neg (by rw [BufRec.counted_st, hst]; nofun)]
    rfl
  rw [hcounted] at hbuf
  have hjob : (s.fab.beforeTests s.env s.tables (s.tag k) k (.okay data)).jobOf i b = s.fab.jobOf i b := by
    unfold Fabric.jobOf
    rw [a.queue, a.surf]
    rfl
  dsimp only
  rw [State.afterTag_running hd k he, Fabric.complete_eq s.fab s.env s.tables hs k (.okay data)]
  generalize s.fab.beforeTests s.env s.tables (s.tag k) k (.okay data) = B at *
  have hR := B.surf_released i
  rw [a.surf] at hR
  have hbeside := B.beside_bufferTests i s.env
  have htests := B.bufferTests_attached s.env i (by rw [a.surf]; exact hl)
  rw [a.surf, show ((s.surf i).accessEnded (s.tag k) b none).closing = [b] from hcl] at htests
  have hjob' : (B.modSurf i Surface.released).jobOf i b = s.fab.jobOf i b := by
    rw [← hjob]
    unfold Fabric.jobOf
    rw [hR, a.surf]
    rfl
  have hRev : (B.modSurf i Surface.released).events = s.fab.events := a.events
  have hready : (B.modSurf i Surface.released).readyTest i b = true ↔
      (r.prodWrites ≤ 1 ∧ r.merges = 0 ∧ r.copyWrites = 0 ∧ s.fab.jobOf i b = none) := by
    unfold Fabric.readyTest
    rw [hjob', hR, Surface.buf_of_some hbuf]
    simp only [Bool.and_eq_true, beq_iff_eq, Nat.sub_eq_zero_iff_le, Option.isNone_iff_eq_none, and_assoc]
  generalize B.modSurf i Surface.released = R at *
  have hC : ((B.bufferTests s.env i).surf i).lane = [] ∧ ∃ r', ((B.bufferTests s.env i).surf i).bufs[b]? = some r' ∧
      r'.prodWrites = r.prodWrites - 1 ∧ r'.content = r.content ∧
      if r.prodWrites ≤ 1 ∧ r.merges = 0 ∧ r.copyWrites = 0 ∧ s.fab.jobOf i b = none then
        r'.st = .ready ∧ ((B.bufferTests s.env i).surf i).present = (s.surf i).present ++ [b] ∧
          ((B.bufferTests s.env i).surf i).closing = [] ∧
          (B.bufferTests s.env i).events = appendEvent s.fab.events
            { kind := .frameReady, surface := BitVec.ofNat 8 i.val, pipe := (s.surf i).desc.pipe,
              buffer := BitVec.ofNat 8 b, seq := BitVec.ofNat 32 r.content, detail := if r.damaged then 1 else 0,
              stamp := s.timebase }
      else r'.st = .closing ∧ ((B.bufferTests s.env i).surf i).present = (s.surf i).present ∧
        ((B.bufferTests s.env i).surf i).closing = [b] ∧ (B.bufferTests s.env i).events = s.fab.events := by
    rw [htests, Fabric.promoteReady]
    by_cases hc : r.prodWrites ≤ 1 ∧ r.merges = 0 ∧ r.copyWrites = 0 ∧ s.fab.jobOf i b = none
    · rw [if_pos (hready.mpr hc), Fabric.promoteReady]
      have hsurf := R.surf_makeReady s.env i b
      rw [hR] at hsurf
      refine ⟨by rw [hsurf]; exact hlane, { r with prodWrites := r.prodWrites - 1, st := .ready }, ?_, rfl, rfl, ?_⟩
      · rw [hsurf, Surface.bufs_modBuf, if_pos rfl]
        exact congrArg (Option.map _) hbuf
      · rw [if_pos hc]
        refine ⟨rfl, by rw [hsurf]; rfl, ?_, ?_⟩
        · rw [hsurf]
          change ((s.surf i).closing).erase b = []
          rw [hcl]
          simp
        · rw [R.events_makeReady s.env i (by rw [hR]; exact hbuf), hRev, hR]
          rfl
    · rw [if_neg (mt hready.mp hc)]
      refine ⟨by rw [hR]; exact hlane, { r with prodWrites := r.prodWrites - 1 }, by rw [hR]; exact hbuf, rfl, rfl, ?_⟩
      rw [if_neg hc, hR]
      exact ⟨hst, rfl, hcl, hRev⟩
  clear htests
  generalize B.bufferTests s.env i = C at *
  have hidle := Fabric.finish_idle (g := C) (i := i) s.env (hbeside.offered.trans (a.offered.trans ho))
    (fun k' hk' => (hbeside.surfaceRests hk').trans ((a.surfaceRests hk').trans (hrs k')))
    (by unfold Fabric.scansRest at hq ⊢; rw [hbeside.scanQ, a.scanQ]; exact hq) (.inl hC.1)
  generalize C.finish s.env = F at *
  obtain ⟨f1, -, -, f4, -, -⟩ := hidle
  obtain ⟨-, r', c1, c2, c3, c4⟩ := hC
  refine ⟨r', (congrArg (fun su : Surface => su.bufs[b]?) f4).trans c1, c2, c3, ?_⟩
  split
  · next hc =>
    rw [if_pos hc] at c4
    exact ⟨c4.1, (congrArg Surface.present f4).trans c4.2.1, (congrArg Surface.closing f4).trans c4.2.2.1, f1.trans c4.2.2.2⟩
  · next hc =>
    rw [if_neg hc] at c4
    exact ⟨c4.1, (congrArg Surface.present f4).trans c4.2.1, (congrArg Surface.closing f4).trans c4.2.2.1, f1.trans c4.2.2.2⟩

end

/-- Settles O52. -/
theorem responseFreesTag : Obligations.ResponseFreesTag := by
  intro s k code data
  have hc : TagEntry.cleared.st ≠ .issued := nofun
  refine ⟨fun hf => ?_, fun hi => ?_, fun i b r p hin hu hf hi => ⟨fun hk hroute => ?_, fun pos hk hroute => ?_,
    fun xs first hk hroute hn hlen hfmt => ?_, fun hk => ?_⟩, fun i b hd => ?_, fun hr hdev hi hk hs => ?_,
    fun i b hr hdev hi hs hb hl hq hh hp hbs hls hk => ?_, fun i b r hr hdev hi hs hb hl hq hbr => ⟨fun hst hcl hk => ?_, fun hst hcl hk => ?_⟩⟩
  · refine congrArg Host.Outcome.next ?_
    rw [State.respond, hf]
  · exact ⟨_, exec_response hi code data, s.afterTag_outside k hc _ _⟩
  · have hk' : (s.tag k).kind.isPart := .inl hk
    have hend := State.partEnds hin hu hf hi hk' (readData s.freeCount data (s.wanted (s.tag k))) hc
      (s.freeCount + (s.wanted (s.tag k) - data.length))
    have harea : s.fab.areaWriter (s.tag k) (.okay (readData s.freeCount data (s.wanted (s.tag k)))) p.data = p.data := by
      unfold Fabric.areaWriter
      rw [hroute]
      rfl
    rw [harea] at hend
    exact ⟨_, exec_response hin.2.2.1 .okay data, hend⟩
  · have hk' : (s.tag k).kind.isPart := .inr (.inr hk)
    have hw : s.wanted (s.tag k) = data.length := by
      rw [State.wanted, hk]
      dsimp only
      rw [hroute]
      rfl
    have hexec := exec_response hin.2.2.1 .okay data
    rw [State.responseEnd, hw, readData_length] at hexec
    have hend := State.partEnds hin hu hf hi hk' data hc (s.freeCount + (data.length - data.length))
    have harea : s.fab.areaWriter (s.tag k) (.okay data) p.data = writeAt p.data pos data := by
      unfold Fabric.areaWriter
      rw [hroute]
    rw [harea] at hend
    exact ⟨_, _, hexec, hend, length_writeAt _ _ _, fun j hj => byteAt_writeAt _ _ _ hj⟩
  · have hk' : (s.tag k).kind.isPart := .inr (.inl hk)
    have hw : s.wanted (s.tag k) = data.length := by
      rw [State.wanted, hk]
      dsimp only
      rw [hroute, hlen]
      simp [Route.length]
    have hexec := exec_response hin.2.2.1 .okay data
    rw [State.responseEnd, hw, readData_length] at hexec
    have hend := State.partEnds hin hu hf hi hk' data hc (s.freeCount + (data.length - data.length))
    have harea : s.fab.areaWriter (s.tag k) (.okay data) p.data =
        writePixels (s.surf i).desc first (xs.map .index) data p.data := by
      unfold Fabric.areaWriter
      rw [hroute]
      dsimp only
      rw [hin.2.2.2.1]
      rfl
    rw [harea] at hend
    exact ⟨_, _, hexec, hend, length_writePixels _ _ _ _ _, fun j hj => byteAt_writePixels hfmt first xs hn data p.data hj⟩
  · exact ⟨_, exec_response hin.2.2.1 .error data, State.partFails hin hu hf hi hk (.inl ⟨rfl, rfl, rfl⟩) hc _⟩
  · refine ⟨_, exec_response hd.2.1 code data, ?_⟩
    have hend := State.drainDecided hd (s.responseEnd (s.tag k) code data) hc (s.freeCount + (s.wanted (s.tag k) - data.length))
    cases code <;> exact hend
  · refine ⟨_, exec_response hi code data, ?_⟩
    have hd := s.fab.deliver_pass s.tables hk (s.responseEnd (s.tag k) code data)
    have he : s.fab.complete s.env s.tables (s.tag k) k (s.responseEnd (s.tag k) code data) =
        s.fab.deliver s.tables (s.tag k) (s.responseEnd (s.tag k) code data) := by
      rw [Fabric.complete_pass _ _ _ hk hs]
      unfold Fabric.logFailure
      rw [hk]
      cases code <;> rfl
    rw [he]
    generalize s.fab.deliver s.tables (s.tag k) (s.responseEnd (s.tag k) code data) = g at *
    have hend := State.afterTag_pass (f := g) hr k hc (by rw [hd]) (s.freeCount + (s.wanted (s.tag k) - data.length))
    have hev : g.events = s.fab.events := by rw [hd]
    rwa [hev] at hend
  · exact ⟨_, exec_response hi .okay data, State.decidedAfterPart hr hdev hs hb hl hq hh hp hbs hls hk _ hc _⟩
  · obtain ⟨r', h⟩ := State.drainingPart hr hdev hs hb hl hq hbr hst hcl hk (readData s.freeCount data (s.wanted (s.tag k))) hc
      (s.freeCount + (s.wanted (s.tag k) - data.length))
    exact ⟨_, r', exec_response hi .okay data, h⟩
  · obtain ⟨r', h⟩ := State.closingPart hr hdev hs hb hl hq hbr hst hcl hk (readData s.freeCount data (s.wanted (s.tag k))) hc
      (s.freeCount + (s.wanted (s.tag k) - data.length))
    exact ⟨_, r', exec_response hi .okay data, h⟩

end Sys2Proof.Machine

/-! # The boundary of a pipe with one surface (R114 to R116)

The surface settles after its boundary rule, the scanout latches follow, and the copy engine runs last. -/

namespace Sys2Proof.Machine

set_option Elab.async false

/-! ## A surface that has settled rests -/

theorem Surface.firstOutstanding_modMerge (su : Surface) (id n : Nat) :
    (su.modMerge id (fun q => { q with presented := some n })).firstOutstanding =
      su.firstOutstanding.map (fun q => if q.id = id then { q with presented := some n } else q) := by
  unfold Surface.firstOutstanding Surface.modMerge
  dsimp only
  rw [List.find?_map]
  refine congrArg (fun p => Option.map _ (List.find? p su.merges)) (funext fun q => ?_)
  rw [Function.comp_apply]
  split <;> rfl

theorem Fabric.presentMerge_claim (f : Fabric) (i : Fin 8) :
    (match ((f.presentMerge i).surf i).mergeClaim with
      | some m => m.presented.isSome
      | none => true) = true := by
  unfold Fabric.presentMerge
  cases hc : (f.surf i).mergeClaim with
  | none =>
    dsimp only
    rw [hc]
  | some m =>
    dsimp only
    have hm : (f.surf i).firstOutstanding = some m ∧ m.claims = true := by
      unfold Surface.mergeClaim at hc
      split at hc
      · split at hc
        · next hcl =>
          obtain rfl := Option.some.inj hc
          exact ⟨by assumption, hcl⟩
        · cases hc
      · cases hc
    by_cases hp : m.presented.isNone = true
    · rw [if_pos hp, Fabric.surf_modSurf_same]
      unfold Surface.mergeClaim
      rw [show Fabric.surf { f with nextStamp := f.nextStamp + 1 } i = f.surf i from rfl, Surface.firstOutstanding_modMerge, hm.1,
        Option.map_some, if_pos rfl]
      dsimp only
      rw [if_pos (show Merge.claims { m with presented := some f.nextStamp } = true from hm.2)]
      rfl
    · rw [if_neg hp, hc]
      dsimp only
      cases hn : m.presented with
      | none =>
        rw [hn] at hp
        exact absurd rfl hp
      | some n => rfl

theorem Fabric.settleSurface_surfaceRests (env : Env) (f : Fabric) (i : Fin 8) :
    (Fabric.settleSurface env f i).surfaceRests i = true := by
  have hlane := Fabric.runLane_rests env i ((f.surf i).lane.length + 1) f (Nat.le_succ _)
  unfold Fabric.settleSurface
  generalize Fabric.runLane env i ((f.surf i).lane.length + 1) f = r at *
  obtain ⟨hcopy, -, -, -, hs, hm⟩ := r.presentMerge_spec i
  have hclaim := r.presentMerge_claim i
  generalize r.presentMerge i = p at *
  have hout : (p.surf i).mergeOutstanding = (r.surf i).mergeOutstanding := by
    have : ∀ l : List Merge, l.any Merge.outstanding = (l.map Merge.unstamped).any Merge.outstanding := fun l => by
      rw [List.any_map]
      rfl
    rw [Surface.mergeOutstanding, Surface.mergeOutstanding, this, hm, ← this]
  have hjob : ∀ b, p.jobOf i b = r.jobOf i b := Fabric.jobOf_congr (by rw [hcopy]) (by rw [hs])
  have hready : ∀ m, p.headReady i m = r.headReady i m := fun m => by
    unfold Fabric.headReady Fabric.stripesDone
    rw [hout, hjob]
  have hchoose : (p.surf i).chooseFree.isNone = (r.surf i).chooseFree.isNone := Surface.chooseFree_isNone (by rw [hs]; rfl)
  have hrest : p.headRests i = r.headRests i := by
    have hhead : (p.surf i).head = (r.surf i).head := by rw [hs]
    unfold Fabric.headRests
    rw [hhead]
    simp only [hready, hchoose, hout]
  have hl : (p.surf i).lane = (r.surf i).lane ∧ (p.surf i).life = (r.surf i).life := by
    rw [hs]
    exact ⟨rfl, rfl⟩
  unfold Fabric.surfaceRests
  rw [hrest, hl.1, hl.2, Bool.and_eq_true]
  exact ⟨by simpa [or_assoc] using hlane, hclaim⟩

/-! ## The copy engine does not look at the scanout latches -/

/-- The fabric with the scanout values of one surface latched (R124). -/
def Fabric.latched (f : Fabric) (i : Fin 8) : Fabric := f.modSurf i Surface.latchScanout

section
variable (f : Fabric) (i : Fin 8)

theorem Fabric.surf_latched (k : Fin 8) : (f.latched i).surf k = if i = k then (f.surf k).latchScanout else f.surf k :=
  f.surf_modSurf i k Surface.latchScanout

theorem Fabric.latched_reads {α : Type} (g : Surface → α) (hg : ∀ su : Surface, g su.latchScanout = g su) (k : Fin 8) :
    g ((f.latched i).surf k) = g (f.surf k) := by
  rw [Fabric.surf_latched]
  split
  · exact hg _
  · rfl

theorem Fabric.jobOf_latched (k : Fin 8) (b : Nat) : (f.latched i).jobOf k b = f.jobOf k b := f.jobOf_modSurf i k b rfl

theorem Fabric.modJob_latched (k : Fin 8) (b : Nat) (g : CopyJob → CopyJob) :
    (f.latched i).modJob k b g = (f.modJob k b g).latched i := by
  have hcomm : ∀ (f : Fabric) (h : Surface → Surface), (∀ su : Surface, h su.latchScanout = (h su).latchScanout) →
      (f.latched i).modSurf k h = (f.modSurf k h).latched i := by
    intro f h hh
    by_cases hk : i = k
    · subst hk
      unfold Fabric.latched
      rw [Fabric.modSurf_modSurf, Fabric.modSurf_modSurf]
      exact Fabric.modSurf_congr f i (hh _)
    · have h1 : (f.latched i).surf k = f.surf k := f.surf_modSurf_other _ hk
      have h2 : (f.modSurf k h).surf i = f.surf i := f.surf_modSurf_other _ (Ne.symm hk)
      have hset := Vector.set_comm (xs := f.surfaces) (h (f.surf k)) (f.surf i).latchScanout (i := k.val) (j := i.val) (hi := k.isLt) (hj := i.isLt)
        (fun e => hk (Fin.ext e).symm)
      unfold Fabric.modSurf at *
      unfold Fabric.latched Fabric.modSurf at *
      rw [h1, h2]
      exact congrArg (fun v => ({ f with surfaces := v } : Fabric)) hset.symm
  exact hcomm { f with copy := { f.copy with queue := f.copy.queue.map fun j : CopyJob => if j.isFor k b then g j else j } }
    (fun su => { su with deferred := su.deferred.map fun j : CopyJob => if j.isFor k b then g j else j }) fun _ => rfl

theorem Fabric.waitedStripes_latched (k : Fin 8) : (f.latched i).waitedStripes k = f.waitedStripes k := by
  unfold Fabric.waitedStripes
  rw [f.latched_reads i (fun su => su.head) (fun _ => rfl) k]
  simp only [Fabric.jobOf_latched]

theorem Fabric.earliestHead_latched (l : List CopyJob) : (f.latched i).earliestHead l = f.earliestHead l := by
  have hid : ∀ k, (f.latched i).headId k = f.headId k := fun k => by
    unfold Fabric.headId
    rw [f.latched_reads i (fun su => su.lane) (fun _ => rfl) k]
  induction l with
  | nil => rfl
  | cons j js ih =>
    unfold Fabric.earliestHead
    rw [ih]
    simp only [hid]

theorem Fabric.makeCurrent_latched (j : CopyJob) (k : Nat) : (f.latched i).makeCurrent j k = (f.makeCurrent j k).latched i := by
  unfold Fabric.makeCurrent
  dsimp only
  rw [Fabric.modJob_latched, Fabric.latched_reads _ i (fun su => su.desc) (fun _ => rfl)]
  rfl

theorem Fabric.select_latched : (f.latched i).select = f.select.latched i := by
  have hstart : ∀ j, (f.latched i).startable j = f.startable j := fun j =>
    f.latched_reads i (fun su => decide ((su.buf j.source).st ≠ .closing)) (fun _ => rfl) j.surface
  have hclaim : ∀ j, (f.latched i).claimedStripe j = f.claimedStripe j := fun j => by
    unfold Fabric.claimedStripe
    rw [f.latched_reads i (fun su => su.head) (fun _ => rfl) j.surface, Fabric.waitedStripes_latched]
  have hcopy : (f.latched i).copy = f.copy := rfl
  unfold Fabric.select
  simp only [hcopy, hstart, Fabric.waitedStripes_latched, Fabric.earliestHead_latched, hclaim, Fabric.makeCurrent_latched]
  split
  · rfl
  · split
    · split <;> rfl
    · split
      · rfl
      · split <;> rfl

theorem Fabric.startChunk_latched (c : CurrentStripe) : (f.latched i).startChunk c = (f.startChunk c).latched i := by
  have hsu := f.surf_latched i c.surface
  unfold Fabric.startChunk
  rw [Fabric.jobOf_latched]
  cases f.jobOf c.surface c.target with
  | none => rfl
  | some j =>
    dsimp only
    rw [Fabric.modJob_latched, f.latched_reads i (fun su => su.desc) (fun _ => rfl) c.surface,
      f.latched_reads i (fun su => (su.buf j.source).base) (fun _ => rfl) c.surface,
      f.latched_reads i (fun su => (su.buf j.target).base) (fun _ => rfl) c.surface]
    rfl

end

theorem Fabric.runEngine_latched (n : Nat) (f : Fabric) (i : Fin 8) :
    Fabric.runEngine n (f.latched i) = (Fabric.runEngine n f).latched i := by
  induction n generalizing f with
  | zero => rfl
  | succ n ih =>
    unfold Fabric.runEngine
    dsimp only
    rw [Fabric.select_latched]
    generalize f.select = g
    rw [show (g.latched i).copy = g.copy from rfl]
    split
    · split
      · rw [Fabric.startChunk_latched]
        exact ih _
      · rfl
    · rfl

/-! ## The boundary rule beside the other surfaces -/

section
variable (f : Fabric) (i : Fin 8) (env : Env)

theorem Fabric.beside_answerNow (id : Nat) (code : UpCode) : Fabric.Beside i f (f.answerNow id code) := by
  unfold Fabric.answerNow
  split
  · exact f.beside_books i _ _ _ _ _
  · exact .refl f

theorem Fabric.beside_holdStep : Fabric.Beside i f (f.holdStep env i) := by
  have hlane : ∀ (l : List LaneReq) (g : Fabric), Fabric.Beside i g (l.foldl (fun g q => g.answerNow q.id .retry) g) := by
    intro l
    induction l with
    | nil => exact fun g => .refl g
    | cons q l ih => exact fun g => (g.beside_answerNow i q.id .retry).trans (ih _)
  unfold Fabric.holdStep
  split
  · refine (f.beside_modSurf i Surface.countHold).trans ?_
    dsimp only
    split
    · unfold Fabric.expireHold
      exact (hlane _ _).trans ((Fabric.beside_modSurf _ i _).trans ((Fabric.beside_logSurf _ i env _ i _ _ _).trans (Fabric.beside_modSurf _ i _)))
    · exact .refl _
  · exact .refl f

theorem Fabric.beside_flipTo (n : Word) (b : Nat) : Fabric.Beside i f (f.flipTo env i n b) :=
  (f.beside_modSurf i _).trans (Fabric.beside_logSurf _ i env _ i _ _ _)

theorem Fabric.beside_skipBuffer (n : Word) (b : Nat) : Fabric.Beside i f (f.skipBuffer env i n b) :=
  (f.beside_modSurf i _).trans (Fabric.beside_logSurf _ i env _ i _ _ _)

theorem Fabric.beside_flipSelect (n : Word) : Fabric.Beside i f (f.flipSelect env i n) := by
  have hskip : ∀ (l : List Nat) (g : Fabric), Fabric.Beside i g (l.foldl (fun g k => g.skipBuffer env i n k) g) := by
    intro l
    induction l with
    | nil => exact fun g => .refl g
    | cons k l ih => exact fun g => (g.beside_skipBuffer i env n k).trans (ih _)
  unfold Fabric.flipSelect
  dsimp only
  split
  · exact .refl f
  · split
    · split
      · exact (hskip _ _).trans (Fabric.beside_flipTo _ i env n _)
      · exact .refl f
    · split
      · exact f.beside_flipTo i env n _
      · exact .refl f

theorem Fabric.beside_closeOnBoundary : Fabric.Beside i f (f.closeOnBoundary env i) := by
  unfold Fabric.closeOnBoundary
  dsimp only
  split
  · split
    · exact f.beside_closeTrigger i env
    · exact .refl f
  · exact .refl f

theorem Fabric.beside_boundaryRule (n : Word) : Fabric.Beside i f (f.boundaryRule env i n) :=
  (f.beside_modSurf i _).trans ((Fabric.beside_holdStep _ i env).trans
    ((Fabric.beside_flipSelect _ i env n).trans (Fabric.beside_closeOnBoundary _ i env)))

end

/-! ## The boundary -/

/-- A boundary of a pipe with one surface: its rule, what it then does at once, the latches, and the engine. -/
theorem State.boundary_alone {s : State} {p : Fin 4} {i : Fin 8} (hr : s.AtRest) (he : (s.pipes.get p).enabled = true)
    (ho : s.fab.onPipe p = [i]) {g : Fabric}
    (hg : s.fab.boundaryRule (s.counted p).env i ((s.pipes.get p).counter + 1) = g) :
    s.boundary p none =
      { s.counted p with fab := (Fabric.runEngine 5 (Fabric.settleSurface (s.counted p).env g i)).latched i } := by
  have hb := (s.fab.beside_boundaryRule i (s.counted p).env ((s.pipes.get p).counter + 1)).trans
    (Fabric.beside_settleSurface _ (s.counted p).env i)
  rw [hg] at hb
  have hsettled := Fabric.settleSurface_surfaceRests (s.counted p).env g i
  rw [State.boundary_single he ho]
  have hstate : (s.counted p).onFabric (fun env f =>
      (Fabric.settleSurface env (f.boundaryRule env i ((s.pipes.get p).counter + 1)) i).modSurf i Surface.latchScanout) =
      { s.counted p with fab := (Fabric.settleSurface (s.counted p).env g i).latched i } := by
    rw [← hg]
    rfl
  have hb' : Fabric.Beside i s.fab ((Fabric.settleSurface (s.counted p).env g i).latched i) :=
    hb.trans (Fabric.beside_modSurf _ i Surface.latchScanout)
  have hfin : ((Fabric.settleSurface (s.counted p).env g i).latched i).finish (s.counted p).env =
      (Fabric.runEngine 5 (Fabric.settleSurface (s.counted p).env g i)).latched i := by
    have hlatch : ((Fabric.settleSurface (s.counted p).env g i).latched i).surfaceRests i = true := Fabric.surfaceRests_latch hsettled
    rw [hb'.finish (s.counted p).env hr, Fabric.settleSurface_of_rests _ (s.counted p).env i hlatch, Fabric.runEngine_latched]
  rw [hstate, State.finish_with, hfin]

end Sys2Proof.Machine

/-! # The boundary at the rotation controller: ageing and flips (R116 to R119) -/

namespace Sys2Proof.Machine

set_option Elab.async false

/-! ## Ageing -/

/-- The surface with its SHOWN buffer one boundary older. -/
def Surface.aged (su : Surface) : Surface :=
  { su with bufs := su.bufs.map (fun x => if x.st = .shown then { x with age := min 255 (x.age + 1) } else x) }

theorem Surface.aged_states (su : Surface) : su.aged.states = su.states :=
  Surface.states_map (su := su) fun x => by split <;> rfl

theorem Surface.countIn_eq_states (su : Surface) (st : BufState) : su.countIn st = su.states.countP (fun x => decide (x = st)) := by
  rw [Surface.states, List.countP_map]
  rfl

section
variable {f : Fabric} {env : Env} {i : Fin 8} {n : Word} (hs : (f.surf i).countIn .shown ≤ 1)
include hs

/-- The boundary rule of a surface whose head does not wait for a buffer. -/
theorem Fabric.boundaryRule_of_moving (hw : (f.surf i).head ≠ .waiting) : f.boundaryRule env i n =
    ((f.modSurf i Surface.aged).flipSelect env i n).closeOnBoundary env i := by
  have haged : f.modSurf i Surface.ageShown = f.modSurf i Surface.aged := Fabric.modSurf_congr f i (Surface.ageShown_eq hs)
  have hhold : (f.modSurf i Surface.aged).holdStep env i = f.modSurf i Surface.aged := by
    unfold Fabric.holdStep
    refine if_neg ?_
    rw [Fabric.surf_modSurf_same]
    exact hw
  unfold Fabric.boundaryRule
  dsimp only
  rw [haged, hhold]

/-- The boundary rule of a surface whose head waits, the hold limit not reached. -/
theorem Fabric.boundaryRule_of_counting (hw : (f.surf i).head = .waiting) (hn : (f.surf i).agedWait.holdReached = false) :
    f.boundaryRule env i n = ((f.modSurf i Surface.agedWait).flipSelect env i n).closeOnBoundary env i := by
  have haged : (f.surf i).ageShown.countHold = (f.surf i).agedWait := by
    rw [Surface.ageShown_eq hs]
    rfl
  have hhead : ((f.modSurf i Surface.ageShown).surf i).head = .waiting := by
    rw [Fabric.surf_modSurf_same, Surface.ageShown_eq hs]
    exact hw
  have hmod : (f.modSurf i Surface.ageShown).modSurf i Surface.countHold = f.modSurf i Surface.agedWait := by
    rw [Fabric.modSurf_modSurf]
    exact Fabric.modSurf_congr f i haged
  unfold Fabric.boundaryRule
  dsimp only
  rw [Fabric.holdStep_of_waiting hhead, Fabric.surf_modSurf_same, haged, hn, if_neg Bool.false_ne_true, hmod]

end

/-! ## Whether the surface may flip -/

/-- The SHOWN buffer of an aged surface. -/
theorem Surface.aged_shown {su : Surface} (hs : su.countIn .shown ≤ 1) {k : Nat} {x : BufRec} (hx : su.bufs[k]? = some x)
    (hst : x.st = .shown) : su.aged.shown = some k ∧ (su.aged.buf k).age = min 255 (x.age + 1) := by
  have hk : su.aged.bufs[k]? = some { x with age := min 255 (x.age + 1) } := by
    rw [Surface.aged, List.getElem?_map, hx, Option.map_some, if_pos hst]
  refine ⟨Surface.shown_eq_of ?_ hk hst, by rw [Surface.buf_of_some hk]⟩
  rw [Surface.countIn_eq_states, Surface.aged_states, ← Surface.countIn_eq_states]
  exact hs

theorem Surface.aged_mayFlip {su : Surface} (hs : su.countIn .shown ≤ 1)
    (h : ∀ x ∈ su.bufs, x.st = .shown → su.desc.minShow.toNat ≤ min 255 (x.age + 1)) : su.aged.mayFlip = true := by
  unfold Surface.mayFlip
  cases hsh : su.aged.shown with
  | none => rfl
  | some b =>
    obtain ⟨y, hy, hst⟩ := Surface.shown_some hsh
    rw [Surface.aged, List.getElem?_map] at hy
    obtain ⟨x, hx, rfl⟩ := Option.map_eq_some_iff.mp hy
    have hxs : x.st = .shown := by
      split at hst <;> exact hst
    dsimp only
    rw [(Surface.aged_shown hs hx hxs).2]
    exact decide_eq_true (h x (List.mem_of_getElem? hx) hxs)

theorem Surface.aged_mayFlip_false {su : Surface} (hs : su.countIn .shown ≤ 1) {x : BufRec} (hx : x ∈ su.bufs) (hst : x.st = .shown)
    (h : min 255 (x.age + 1) < su.desc.minShow.toNat) : su.aged.mayFlip = false := by
  obtain ⟨k, hk⟩ := List.mem_iff_getElem?.mp hx
  obtain ⟨h1, h2⟩ := Surface.aged_shown hs hk hst
  unfold Surface.mayFlip
  rw [h1]
  dsimp only
  rw [h2]
  exact decide_eq_false (Nat.not_le.mpr h)

/-! ## Flips -/

/-- A surface after a flip to buffer `b`, with the buffers skipped and the present queue left (R117, R118). -/
def Surface.flipped (su : Surface) (b : Nat) (skipped bs : List Nat) : Surface := { su with
  present := bs
  bufs := su.bufs.mapIdx (fun k x => if k = b then { x with st := .shown, age := 0 }
    else if x.st = .shown ∨ k ∈ skipped then { x with st := x.unused } else x) }

/-- A record of presentation (R122). -/
def Surface.shownRecord (su : Surface) (i : Fin 8) (now : Word) (n : Word) (kind : EventKind) (k : Nat) : EventRecord :=
  { kind := kind, surface := BitVec.ofNat 8 i.val, pipe := su.desc.pipe, buffer := BitVec.ofNat 8 k,
    seq := BitVec.ofNat 32 (su.buf k).content, detail := BitVec.ofNat 16 (n.toNat % 65536), stamp := now }

theorem Surface.content_modBuf (su : Surface) (b k : Nat) {g : BufRec → BufRec} (hg : ∀ x, (g x).content = x.content) :
    ((su.modBuf b g).buf k).content = (su.buf k).content := by
  unfold Surface.buf
  rw [List.getD_eq_getElem?_getD, List.getD_eq_getElem?_getD, Surface.bufs_modBuf]
  split
  · cases su.bufs[k]? with
    | none => rfl
    | some x => exact hg x
  · rfl

section
variable (f : Fabric) (env : Env) (i : Fin 8) (n : Word)

/-- Buffers superseded under LATEST, one after another (R118). -/
theorem Fabric.foldl_skipBuffer (l : List Nat) (rest : List Nat) (hp : (f.surf i).present = l ++ rest) :
    (l.foldl (fun g k => g.skipBuffer env i n k) f).surf i = { f.surf i with
        present := rest
        bufs := (f.surf i).bufs.mapIdx (fun k x => if k ∈ l then { x with st := x.unused } else x) } ∧
      (l.foldl (fun g k => g.skipBuffer env i n k) f).events =
        l.foldl (fun q k => appendEvent q ((f.surf i).shownRecord i env.now n .frameSkipped k)) f.events := by
  induction l generalizing f with
  | nil =>
    have : (f.surf i).bufs.mapIdx (fun k x => if k ∈ ([] : List Nat) then { x with st := x.unused } else x) = (f.surf i).bufs :=
      List.ext_getElem (by simp) fun k _ _ => by simp
    rw [this, List.foldl_nil]
    refine ⟨?_, rfl⟩
    rw [show rest = (f.surf i).present from hp.symm]
  | cons b l ih =>
    have hone : (f.skipBuffer env i n b).surf i =
        { f.surf i with present := l ++ rest, bufs := ((f.surf i).modBuf b BufRec.leaveUse).bufs } := by
      unfold Fabric.skipBuffer
      rw [Fabric.surf_logSurf, Fabric.surf_modSurf_same, hp, List.cons_append, List.erase_cons_head]
      rfl
    have hcontent : ∀ k, (((f.skipBuffer env i n b).surf i).buf k).content = ((f.surf i).buf k).content := by
      intro k
      rw [hone]
      exact (f.surf i).content_modBuf b k fun _ => rfl
    have hev : (f.skipBuffer env i n b).events = appendEvent f.events ((f.surf i).shownRecord i env.now n .frameSkipped b) := by
      have hc := hcontent b
      unfold Fabric.skipBuffer at hc ⊢
      rw [Fabric.surf_logSurf] at hc
      rw [Fabric.events_logSurf, hc, Fabric.surf_modSurf_same]
      rfl
    obtain ⟨h1, h2⟩ := ih (f.skipBuffer env i n b) (by rw [hone])
    rw [List.foldl_cons, List.foldl_cons, h1, h2, hev]
    constructor
    · rw [hone]
      refine congrArg (fun bs => ({ f.surf i with present := rest, bufs := bs } : Surface)) (List.ext_getElem? fun k => ?_)
      rw [List.getElem?_mapIdx, List.getElem?_mapIdx]
      dsimp only
      rw [Surface.bufs_modBuf]
      cases (f.surf i).bufs[k]? with
      | none => rw [Option.map_none, ite_self]; rfl
      | some x =>
        by_cases hk : b = k
        · subst hk
          rw [if_pos rfl, Option.map_some, Option.map_some, Option.map_some, BufRec.leaveUse_eq, if_pos List.mem_cons_self]
          split <;> rfl
        · rw [if_neg hk, Option.map_some, Option.map_some]
          simp only [List.mem_cons, Ne.symm hk, false_or]
    · refine congrArg (fun g => l.foldl g _) (funext fun q => funext fun k => congrArg (appendEvent q) ?_)
      unfold Surface.shownRecord
      rw [hcontent, hone]

/-- The SHOWN buffer, if there is one, has left use (R105, R117). -/
theorem Surface.Retired.eq {su v : Surface} (h : su.Retired v) (hs : su.countIn .shown ≤ 1) :
    v = { su with bufs := su.bufs.map (fun x : BufRec => if x.st = .shown then { x with st := x.unused } else x) } := by
  rcases h with ⟨hsh, hv⟩ | ⟨o, hsh, rfl⟩
  · have : su.bufs.map (fun x => if x.st = .shown then { x with st := x.unused } else x) = su.bufs := by
      rw [List.map_congr_left fun x hx => if_neg (Surface.shown_none.mp hsh x hx), List.map_id']
    rw [this, hv]
  · obtain ⟨r, hr, hst⟩ := Surface.shown_some hsh
    refine congrArg (fun l => ({ su with bufs := l } : Surface)) (List.ext_getElem? fun k => ?_)
    change (su.modBuf o BufRec.leaveUse).bufs[k]? = _
    rw [Surface.bufs_modBuf, List.getElem?_map]
    by_cases hk : o = k
    · rw [if_pos hk, ← hk, hr, Option.map_some, Option.map_some, if_pos hst, BufRec.leaveUse_eq]
    · rw [if_neg hk]
      cases hx : su.bufs[k]? with
      | none => rfl
      | some x => rw [Option.map_some, if_neg fun e => hk (Surface.unique_of_countIn hs hr hx hst e)]

theorem Surface.flipped_content (su : Surface) (b : Nat) (skipped bs : List Nat) :
    ((su.flipped b skipped bs).buf b).content = (su.buf b).content := by
  unfold Surface.buf Surface.flipped
  rw [List.getD_eq_getElem?_getD, List.getD_eq_getElem?_getD, List.getElem?_mapIdx]
  cases su.bufs[b]? with
  | none => rfl
  | some x =>
    rw [Option.map_some, if_pos rfl]
    rfl

/-- What a flip does to the surface and the records (R117). -/
theorem Fabric.flipTo_flipped {b : Nat} {bs : List Nat} (hs : (f.surf i).countIn .shown ≤ 1) (hp : (f.surf i).present = b :: bs) :
    (f.flipTo env i n b).surf i = (f.surf i).flipped b [] bs ∧
      (f.flipTo env i n b).events = appendEvent f.events ((f.surf i).shownRecord i env.now n .flip b) := by
  obtain ⟨v, hv, hflip⟩ := f.flipTo_eq env i n b
  have hw : { v with present := v.present.erase b }.modBuf b (fun r => { r with st := .shown, age := 0 }) =
      (f.surf i).flipped b [] bs := by
    rw [hv.eq hs]
    dsimp only
    rw [hp, List.erase_cons_head]
    refine congrArg (fun l => ({ f.surf i with present := bs, bufs := l } : Surface)) (List.ext_getElem? fun k => ?_)
    change (Surface.modBuf _ b _).bufs[k]? = _
    rw [Surface.bufs_modBuf, List.getElem?_mapIdx]
    dsimp only
    rw [List.getElem?_map]
    cases (f.surf i).bufs[k]? with
    | none => rw [Option.map_none, Option.map_none, ite_self, Option.map_none]
    | some x =>
      by_cases hk : b = k
      · rw [if_pos hk, Option.map_some, Option.map_some, Option.map_some, if_pos hk.symm]
        split <;> rfl
      · rw [if_neg hk, Option.map_some, Option.map_some, if_neg (Ne.symm hk)]
        simp only [List.not_mem_nil, or_false]
  dsimp only at hflip
  rw [hw] at hflip
  rw [hflip, Fabric.surf_logSurf, Fabric.surf_modSurf_same, Fabric.events_logSurf, Fabric.surf_modSurf_same, Surface.flipped_content]
  exact ⟨rfl, rfl⟩

end

theorem Descriptor.latest_eq (d : Descriptor) : d.latest = decide (d.present = 1) := rfl

/-- An index-wise change that lets no more elements meet a test. -/
theorem countP_mapIdx_le {α : Type} {p : α → Bool} (g : Nat → α → α) (h : ∀ k x, p (g k x) = true → p x = true) (l : List α) :
    (l.mapIdx g).countP p ≤ l.countP p := by
  induction l generalizing g with
  | nil => exact Nat.le_refl _
  | cons x l ih =>
    have := ih (fun k => g (k + 1)) fun k => h (k + 1)
    rw [List.mapIdx_cons, List.countP_cons, List.countP_cons]
    by_cases hx : p (g 0 x) = true
    · rw [if_pos hx, if_pos (h 0 x hx)]
      omega
    · rw [if_neg hx]
      omega

/-- What a boundary flips in and what it passes over, under QUEUE and under LATEST (R118). -/
def Surface.Flips (su : Surface) (b : Nat) (skipped bs : List Nat) : Prop :=
  su.desc.present ≠ 1 ∧ su.present = b :: bs ∧ skipped = [] ∨ su.desc.present = 1 ∧ su.present = skipped ++ [b] ∧ bs = []

theorem Fabric.flipSelect_flips {f : Fabric} (env : Env) {i : Fin 8} (n : Word) {b : Nat} {skipped bs : List Nat}
    (hs : (f.surf i).countIn .shown ≤ 1) (hm : (f.surf i).mayFlip = true) (h : (f.surf i).Flips b skipped bs) :
    (f.flipSelect env i n).surf i = (f.surf i).flipped b skipped bs ∧
      (f.flipSelect env i n).events = appendEvent
        (skipped.foldl (fun q k => appendEvent q ((f.surf i).shownRecord i env.now n .frameSkipped k)) f.events)
        ((f.surf i).shownRecord i env.now n .flip b) := by
  unfold Fabric.flipSelect
  dsimp only
  rw [hm, if_neg (by decide), Descriptor.latest_eq]
  rcases h with ⟨hd, hp, rfl⟩ | ⟨hd, hp, rfl⟩
  · rw [if_neg (by simpa using hd), hp]
    dsimp only
    exact f.flipTo_flipped env i n hs hp
  · rw [hd, if_pos (by decide), hp, List.getLast?_concat, List.dropLast_concat]
    dsimp only
    obtain ⟨h1, h2⟩ := f.foldl_skipBuffer env i n skipped [b] hp
    generalize skipped.foldl (fun g k => g.skipBuffer env i n k) f = g at *
    have hcount : (g.surf i).countIn .shown ≤ 1 := by
      refine Nat.le_trans ?_ hs
      rw [h1]
      refine countP_mapIdx_le _ (fun k x hx => ?_) _
      split at hx
      · rcases x.unused_ne with h | h <;> (dsimp only at hx; rw [h] at hx; cases hx)
      · exact hx
    obtain ⟨h3, h4⟩ := g.flipTo_flipped env i n hcount (b := b) (bs := []) (by rw [h1])
    rw [h3, h4, h1, h2]
    refine ⟨?_, congrArg (appendEvent _) ?_⟩
    · refine congrArg (fun l => ({ f.surf i with present := [], bufs := l } : Surface)) (List.ext_getElem? fun k => ?_)
      rw [List.getElem?_mapIdx, List.getElem?_mapIdx, List.getElem?_mapIdx]
      cases (f.surf i).bufs[k]? with
      | none => rfl
      | some x =>
        rw [Option.map_some, Option.map_some, Option.map_some]
        refine congrArg some ?_
        by_cases hk : k = b
        · rw [if_pos hk, if_pos hk]
          split <;> rfl
        · rw [if_neg hk, if_neg hk]
          by_cases hm : k ∈ skipped
          · rw [if_pos hm, if_pos (show x.st = .shown ∨ k ∈ skipped from .inr hm)]
            exact ite_self _
          · simp only [hm, if_false, List.not_mem_nil, or_false]
    · unfold Surface.shownRecord Surface.buf
      dsimp only
      rw [List.getD_eq_getElem?_getD, List.getD_eq_getElem?_getD, List.getElem?_mapIdx]
      cases (f.surf i).bufs[b]? with
      | none => rfl
      | some x =>
        rw [Option.map_some]
        split <;> rfl

end Sys2Proof.Machine

/-! # What a boundary does to a lane that does not ask (R116 to R120) -/

namespace Sys2Proof.Machine

set_option Elab.async false

/-! ## A boundary with or without a flip -/

theorem Fabric.flipSelect_cases (f : Fabric) (env : Env) (i : Fin 8) (n : Word) :
    (f.flipSelect env i n = f ∧ ((f.surf i).mayFlip = false ∨ (f.surf i).present = [])) ∨
    (f.surf i).mayFlip = true ∧ ∃ b skipped bs, (f.surf i).Flips b skipped bs := by
  by_cases hp : (f.surf i).present = []
  · exact .inl ⟨Fabric.flipSelect_of_empty hp env n, .inr hp⟩
  · cases hm : (f.surf i).mayFlip with
    | false =>
      refine .inl ⟨?_, .inl rfl⟩
      unfold Fabric.flipSelect
      dsimp only
      rw [if_pos hm]
    | true =>
      refine .inr ⟨rfl, ?_⟩
      by_cases hd : (f.surf i).desc.present = 1
      · exact ⟨_, _, _, .inr ⟨hd, (List.dropLast_concat_getLast hp).symm, rfl⟩⟩
      · obtain ⟨b, bs, hb⟩ := List.exists_cons_of_ne_nil hp
        exact ⟨_, _, _, .inl ⟨hd, hb, rfl⟩⟩

theorem Fabric.flipSelect_still {f : Fabric} {i : Fin 8} (env : Env) (n : Word)
    (h : (f.surf i).present = [] ∨ (f.surf i).mayFlip = false) : f.flipSelect env i n = f := by
  rcases h with h | h
  · exact Fabric.flipSelect_of_empty h env n
  · unfold Fabric.flipSelect
    dsimp only
    rw [if_pos h]

theorem Fabric.copy_flipSelect (f : Fabric) (env : Env) (i : Fin 8) (n : Word) : (f.flipSelect env i n).copy = f.copy := by
  have hskip : ∀ (l : List Nat) (g : Fabric), (l.foldl (fun g k => g.skipBuffer env i n k) g).copy = g.copy := by
    intro l
    induction l with
    | nil => exact fun g => rfl
    | cons k l ih => exact fun g => ih (g.skipBuffer env i n k)
  unfold Fabric.flipSelect
  dsimp only
  split
  · rfl
  · split
    · split
      · exact hskip _ f
      · rfl
    · split <;> rfl

/-- Only the buffers and the present queue have changed. -/
def Surface.SameButShown (su su' : Surface) : Prop := su' = { su with bufs := su'.bufs, present := su'.present }

theorem Fabric.sameButShown_flipSelect {f : Fabric} (env : Env) {i : Fin 8} (n : Word) (hs : (f.surf i).countIn .shown ≤ 1) :
    (f.surf i).SameButShown ((f.flipSelect env i n).surf i) := by
  rcases f.flipSelect_cases env i n with ⟨h, -⟩ | ⟨hm, b, sk, bs, hf⟩
  · rw [h]
    rfl
  · rw [(Fabric.flipSelect_flips env n hs hm hf).1]
    rfl

/-- A buffer that is neither SHOWN nor in the present queue is as it was after a boundary's flip. -/
theorem Fabric.bufs_flipSelect {f : Fabric} (env : Env) {i : Fin 8} (n : Word) (hs : (f.surf i).countIn .shown ≤ 1) {k : Nat} {x : BufRec}
    (hx : (f.surf i).bufs[k]? = some x) (hst : x.st ≠ .shown) (hk : k ∉ (f.surf i).present) :
    ((f.flipSelect env i n).surf i).bufs[k]? = some x := by
  rcases f.flipSelect_cases env i n with ⟨h, -⟩ | ⟨hm, b, sk, bs, hf⟩
  · rw [h]
    exact hx
  · rw [(Fabric.flipSelect_flips env n hs hm hf).1, Surface.flipped, List.getElem?_mapIdx, hx, Option.map_some]
    have hin : k ≠ b ∧ k ∉ sk := by
      rcases hf with ⟨-, hp, rfl⟩ | ⟨-, hp, -⟩ <;> rw [hp] at hk <;> simp at hk
      · exact ⟨hk.1, List.not_mem_nil⟩
      · exact ⟨hk.2, hk.1⟩
    rw [if_neg hin.1, if_neg fun h => h.elim hst hin.2]

theorem Fabric.closeOnBoundary_of_off {f : Fabric} {i : Fin 8} (env : Env)
    (h : (f.surf i).desc.flags.getLsbD 1 = false ∨ ∀ b, (f.surf i).filling = some b → ((f.surf i).buf b).touched = false) :
    f.closeOnBoundary env i = f := by
  unfold Fabric.closeOnBoundary
  dsimp only
  split
  · next b hb =>
    refine if_neg fun hc => ?_
    rcases h with h | h
    · exact absurd (show (f.surf i).desc.flags.getLsbD 1 = true from hc.1) (by rw [h]; decide)
    · exact absurd hc.2 (by rw [h b hb]; decide)
  · rfl

/-- A surface whose head does not wait for a buffer rests as it did, whatever becomes of the buffers. -/
theorem Fabric.surfaceRests_of_moving {f g : Fabric} {i : Fin 8} (hw : (f.surf i).head ≠ .waiting) (hlane : (g.surf i).lane = (f.surf i).lane)
    (hlife : (g.surf i).life = (f.surf i).life) (hhead : (g.surf i).head = (f.surf i).head)
    (hmerges : (g.surf i).merges = (f.surf i).merges) (hdef : (g.surf i).deferred = (f.surf i).deferred) (hc : g.copy = f.copy) :
    g.surfaceRests i = f.surfaceRests i := by
  have hout : (g.surf i).mergeOutstanding = (f.surf i).mergeOutstanding := by rw [Surface.mergeOutstanding, hmerges]; rfl
  have hclaim : (g.surf i).mergeClaim = (f.surf i).mergeClaim := by
    rw [Surface.mergeClaim, Surface.firstOutstanding, hmerges]
    rfl
  have ready : g.headReady i = f.headReady i := by
    funext m
    simp only [Fabric.headReady, Fabric.stripesDone, Fabric.jobOf_congr (f := f) (g := g) (by rw [hc]) hdef, hout]
  have heads : g.headRests i = f.headRests i := by
    unfold Fabric.headRests
    rw [hhead, hout, ready]
    cases hh : (f.surf i).head with
    | waiting => exact absurd hh hw
    | fresh | mapped m | bound bd => rfl
  unfold Fabric.surfaceRests
  rw [heads, hclaim, hlane, hlife]

/-! ## The part after a boundary on which no head moves -/

theorem mem_onPipe {f : Fabric} {p : Fin 4} {i : Fin 8} (h : f.onPipe p = [i]) : (f.surf i).life = .attached := by
  have : i ∈ f.onPipe p := by
    rw [h]
    exact List.mem_cons_self
  unfold Fabric.onPipe at this
  have := (List.mem_filter.mp this).2
  rw [Bool.and_eq_true, decide_eq_true_eq] at this
  exact this.1

section
variable {s : State} {p : Fin 4} {i : Fin 8} (hr : s.AtRest) (he : (s.pipes.get p).enabled = true) (ho : s.fab.onPipe p = [i])
include hr he ho

/-- An empty lane, or one whose head cannot move, leaves what the boundary rule and the latches have left. -/
theorem State.boundary_quiet {g : Fabric} (hg : s.fab.boundaryRule (s.counted p).env i ((s.pipes.get p).counter + 1) = g)
    (hq : (g.surf i).lane = [] ∨ g.surfaceRests i = true) :
    (s.boundary p none).fab.events = g.events ∧ (s.boundary p none).surf i = { (g.surf i).latchScanout with
      merges := ((s.boundary p none).surf i).merges, deferred := ((s.boundary p none).surf i).deferred } := by
  have hset : Fabric.settleSurface (s.counted p).env g i = g.presentMerge i := by
    rcases hq with h | h
    · rw [Fabric.settleSurface, Fabric.runLane_of_rests g _ i (.inl h)]
    · rw [Fabric.settleSurface_of_rests g _ i h, Fabric.presentMerge_of_rests h]
  have hb := State.boundary_alone hr he ho hg
  rw [hset] at hb
  obtain ⟨-, hev, -, -, hs, -⟩ := g.presentMerge_spec i
  generalize g.presentMerge i = q at *
  have hengine := Fabric.sameButJobs_runEngine 5 q
  generalize Fabric.runEngine 5 q = F at *
  generalize s.boundary p none = t at *
  subst hb
  refine ⟨(show F.events = _ by rw [hengine.rest]; exact hev), ?_⟩
  change (F.latched i).surf i = { (g.surf i).latchScanout with merges := ((F.latched i).surf i).merges, deferred := ((F.latched i).surf i).deferred }
  rw [Fabric.surf_latched, if_pos rfl, hengine.surf i, hs]
  rfl

end

end Sys2Proof.Machine

/-! # Flips, and fills that go on, at a boundary (R116 to R122, R93) -/

namespace Sys2Proof.Machine

set_option Elab.async false

theorem Surface.aged_content (su : Surface) (k : Nat) : (su.aged.buf k).content = (su.buf k).content := by
  unfold Surface.buf Surface.aged
  rw [List.getD_eq_getElem?_getD, List.getD_eq_getElem?_getD, List.getElem?_map]
  cases su.bufs[k]? with
  | none => rfl
  | some x =>
    rw [Option.map_some]
    split <;> rfl

theorem Surface.aged_countIn (su : Surface) (st : BufState) : su.aged.countIn st = su.countIn st := by
  rw [Surface.countIn_eq_states, Surface.aged_states, ← Surface.countIn_eq_states]

/-- A buffer of an aged surface after a flip. -/
theorem Surface.flipped_buf {su : Surface} {b : Nat} {skipped bs : List Nat} {k : Nat} {x : BufRec} (hx : su.bufs[k]? = some x) :
    ∃ y, (su.aged.flipped b skipped bs).bufs[k]? = some y ∧ y.content = x.content ∧ (k = b → y.st = .shown ∧ y.age = 0) ∧
      (k ≠ b → x.st = .shown ∨ k ∈ skipped → y.st = x.unused) := by
  have haged : su.aged.bufs[k]? = some (if x.st = .shown then { x with age := min 255 (x.age + 1) } else x) := by
    rw [Surface.aged, List.getElem?_map, hx]
    rfl
  rw [Surface.flipped, List.getElem?_mapIdx, haged, Option.map_some]
  refine ⟨_, rfl, ?_, fun hk => ?_, fun hk hout => ?_⟩
  · split
    · dsimp only
      split <;> rfl
    · split
      · dsimp only
        split <;> rfl
      · split <;> rfl
  · rw [if_pos hk]
    exact ⟨rfl, rfl⟩
  · rw [if_neg hk]
    by_cases hst : x.st = .shown
    · rw [if_pos hst, if_pos (.inl hst)]
      rfl
    · rw [if_neg hst, if_pos (hout.imp_left fun h => absurd h hst)]

section
variable {s : State} {p : Fin 4} {i : Fin 8} (hr : s.AtRest) (he : (s.pipes.get p).enabled = true) (ho : s.fab.onPipe p = [i])
  (hs : (s.surf i).countIn .shown ≤ 1)
include hr he ho hs

/-! ## An empty lane -/

/-- A flip above an empty lane (R117, R118). -/
theorem State.boundary_flips (hlane : (s.surf i).lane = []) (hh : (s.surf i).head ≠ .waiting)
    (hoff : (s.surf i).desc.flags.getLsbD 1 = false)
    (hm : ∀ x ∈ (s.surf i).bufs, x.st = .shown → (s.surf i).desc.minShow.toNat ≤ min 255 (x.age + 1))
    {b : Nat} {skipped bs : List Nat} (hf : (s.surf i).Flips b skipped bs) :
    ((s.boundary p none).surf i).bufs = ((s.surf i).aged.flipped b skipped bs).bufs ∧ ((s.boundary p none).surf i).present = bs ∧
      (s.boundary p none).fab.events = appendEvent
        (skipped.foldl (fun q k => appendEvent q ((s.surf i).shownRecord i s.timebase ((s.pipes.get p).counter + 1) .frameSkipped k))
          s.fab.events)
        ((s.surf i).shownRecord i s.timebase ((s.pipes.get p).counter + 1) .flip b) := by
  have haged : (s.fab.modSurf i Surface.aged).surf i = (s.surf i).aged := s.fab.surf_modSurf_same i _
  have hrecord : ∀ kind k, (s.surf i).aged.shownRecord i s.timebase ((s.pipes.get p).counter + 1) kind k =
      (s.surf i).shownRecord i s.timebase ((s.pipes.get p).counter + 1) kind k := fun kind k => by
    unfold Surface.shownRecord
    rw [Surface.aged_content]
    rfl
  obtain ⟨h1, h2⟩ := Fabric.flipSelect_flips (f := s.fab.modSurf i Surface.aged) (s.counted p).env (i := i)
    ((s.pipes.get p).counter + 1) (by rw [haged, Surface.aged_countIn]; exact hs) (by rw [haged]; exact Surface.aged_mayFlip hs hm)
    (b := b) (skipped := skipped) (bs := bs) (by rw [haged]; exact hf)
  have hrule := Fabric.boundaryRule_of_moving (env := (s.counted p).env) (n := (s.pipes.get p).counter + 1) hs hh
  rw [haged] at h1 h2
  generalize (s.fab.modSurf i Surface.aged).flipSelect (s.counted p).env i ((s.pipes.get p).counter + 1) = g at *
  rw [Fabric.closeOnBoundary_of_off _ (.inl (by rw [h1]; exact hoff))] at hrule
  obtain ⟨q1, q2⟩ := State.boundary_quiet hr he ho hrule (.inl (by rw [h1]; exact hlane))
  rw [h1] at q2
  generalize s.boundary p none = t at *
  refine ⟨by rw [q2]; rfl, by rw [q2]; rfl, ?_⟩
  rw [q1, h2, ← hrecord .flip b]
  exact congrArg (fun g => appendEvent (skipped.foldl g s.fab.events) _)
    (funext fun q => funext fun k => congrArg (appendEvent q) (hrecord .frameSkipped k))

/-- No flip above an empty lane: the SHOWN buffer ages (R116). -/
theorem State.boundary_ages (hlane : (s.surf i).lane = []) (hh : (s.surf i).head ≠ .waiting)
    (hoff : (s.surf i).desc.flags.getLsbD 1 = false) (hn : (s.surf i).present = [] ∨ (s.surf i).aged.mayFlip = false) :
    ((s.boundary p none).surf i).bufs = (s.surf i).aged.bufs ∧ ((s.boundary p none).surf i).present = (s.surf i).present ∧
      (s.boundary p none).fab.events = s.fab.events := by
  have haged : (s.fab.modSurf i Surface.aged).surf i = (s.surf i).aged := s.fab.surf_modSurf_same i _
  have hrule := Fabric.boundaryRule_of_moving (env := (s.counted p).env) (n := (s.pipes.get p).counter + 1) hs hh
  rw [Fabric.flipSelect_still _ _ (by rw [haged]; exact hn), Fabric.closeOnBoundary_of_off _ (.inl (by rw [haged]; exact hoff))] at hrule
  obtain ⟨q1, q2⟩ := State.boundary_quiet hr he ho hrule (.inl (by rw [haged]; exact hlane))
  rw [haged] at q2
  generalize s.boundary p none = t at *
  exact ⟨by rw [q2]; rfl, by rw [q2]; rfl, q1⟩

end

/-! ## A fill that stands -/

/-- The surface and the engine before close on boundary, where a fill stands. -/
theorem State.flipped_fill {s : State} (p : Fin 4) {i : Fin 8} (hl : ListsSafe (s.surf i)) (hb : BuffersSafe (s.surf i)) {b : Nat}
    {r : BufRec} (hx : (s.surf i).bufs[b]? = some r) (hst : r.st = .filling) :
    let g := (s.fab.modSurf i Surface.aged).flipSelect (s.counted p).env i ((s.pipes.get p).counter + 1)
    (s.surf i).SameButShown (g.surf i) ∧ (g.surf i).bufs[b]? = some r ∧ BuffersSafe (g.surf i) ∧ ListsSafe (g.surf i) ∧
      g.copy = s.fab.copy := by
  have haged : (s.fab.modSurf i Surface.aged).surf i = (s.surf i).aged := s.fab.surf_modSurf_same i _
  have hcount : ((s.fab.modSurf i Surface.aged).surf i).countIn .shown ≤ 1 := by
    rw [haged, Surface.aged_countIn]
    exact hb.2.1
  have hxa : ((s.fab.modSurf i Surface.aged).surf i).bufs[b]? = some r := by
    rw [haged, Surface.aged, List.getElem?_map, hx, Option.map_some, if_neg (by rw [hst]; nofun)]
  have hp : b ∉ ((s.fab.modSurf i Surface.aged).surf i).present := by
    rw [haged]
    intro hm
    have := (listsSafe_iff.mp hl).2.2.1 b hm
    rw [Surface.states_getElem?, hx, Option.map_some, hst] at this
    cases this
  have hsame := Fabric.sameButShown_flipSelect (s.counted p).env ((s.pipes.get p).counter + 1) hcount
  have hbuf := Fabric.bufs_flipSelect (s.counted p).env ((s.pipes.get p).counter + 1) hcount hxa (by rw [hst]; nofun) hp
  have hcopy := (s.fab.modSurf i Surface.aged).copy_flipSelect (s.counted p).env i ((s.pipes.get p).counter + 1)
  have hkeep := ((s.fab.modSurf i Surface.aged).keeps_flipSelect (s.counted p).env i ((s.pipes.get p).counter + 1)).surf i
  have hba : BuffersSafe ((s.fab.modSurf i Surface.aged).surf i) := by
    rw [haged, buffersSafe_iff, Surface.aged_states]
    exact buffersSafe_iff.mp hb
  have hla : ListsSafe ((s.fab.modSurf i Surface.aged).surf i) := by
    rw [haged, listsSafe_iff, Surface.aged_states]
    exact listsSafe_iff.mp hl
  refine ⟨?_, hbuf, hkeep.buffers hba, hkeep.lists hla, hcopy⟩
  rw [haged] at hsame
  unfold Surface.SameButShown at *
  rw [hsame]
  rfl

end Sys2Proof.Machine

/-! # Fills that go on, and heads that wait, at a boundary (R93, R95, R116, R120) -/

namespace Sys2Proof.Machine

set_option Elab.async false

/-- A head that waits for a buffer stands before no fill. -/
theorem Surface.head_of_filling {su : Surface} (hb : BuffersSafe su) {b : Nat} {r : BufRec} (hx : su.bufs[b]? = some r)
    (hst : r.st = .filling) : su.head ≠ .waiting := fun h =>
  Surface.filling_none.mp (Surface.filling_of_waiting hb h) r (List.mem_of_getElem? hx) hst

/-- Close on boundary takes a touched fill (R120). -/
theorem Fabric.closeOnBoundary_of_touched {f : Fabric} {i : Fin 8} (env : Env) {b : Nat} {r : BufRec} (hb : (f.surf i).countIn .filling ≤ 1)
    (hx : (f.surf i).bufs[b]? = some r) (hst : r.st = .filling) (hon : (f.surf i).desc.flags.getLsbD 1 = true) (ht : r.touched = true) :
    f.closeOnBoundary env i = if (f.surf i).headBound then f.modSurf i (fun su => { su with closePending := true })
      else f.applyClose env i b := by
  have hfill : (f.surf i).filling = some b := Surface.filling_eq_of hb hx hst
  have hflag : (f.surf i).desc.closeOnBoundary = true ∧ ((f.surf i).buf b).touched = true := by
    rw [Surface.buf_of_some hx]
    exact ⟨hon, ht⟩
  have htrigger : f.closeTrigger env i = if (f.surf i).headBound then f.modSurf i (fun su => { su with closePending := true })
      else f.applyClose env i b := by
    unfold Fabric.closeTrigger
    rw [hfill]
  unfold Fabric.closeOnBoundary
  dsimp only
  rw [hfill]
  dsimp only
  rw [if_pos hflag, htrigger]

section
variable {s : State} {p : Fin 4} {i : Fin 8} (hr : s.AtRest) (he : (s.pipes.get p).enabled = true) (ho : s.fab.onPipe p = [i])
  (hb : BuffersSafe (s.surf i)) {b : Nat} {r : BufRec} (hx : (s.surf i).bufs[b]? = some r) (hst : r.st = .filling)
include hr he ho hb hx hst

/-! ## A fill that goes on -/

/-- Where the boundary rule leaves the lane, the head, the merges and the jobs of a fill, only the latches and the engine follow. -/
theorem State.boundary_fill {g : Fabric} {c : Bool}
    (hg : s.fab.boundaryRule (s.counted p).env i ((s.pipes.get p).counter + 1) = g)
    (hsame : ({ s.surf i with closePending := c } : Surface).SameButShown (g.surf i)) (hbuf : (g.surf i).bufs[b]? = some r)
    (hc : g.copy = s.fab.copy) :
    ((s.boundary p none).surf i).closePending = c ∧ ((s.boundary p none).surf i).bufs[b]? = some r ∧
      ((s.boundary p none).surf i).head = (s.surf i).head ∧ ((s.boundary p none).surf i).lane = (s.surf i).lane ∧
      ((s.boundary p none).surf i).latch = (s.surf i).latch ∧ ((s.boundary p none).surf i).slot = (s.surf i).slot ∧
      ((s.boundary p none).surf i).frameCounter = (s.surf i).frameCounter := by
  unfold Surface.SameButShown at hsame
  have hrest : g.surfaceRests i = true := by
    rw [Fabric.surfaceRests_of_moving (f := s.fab) (g := g) (i := i) (Surface.head_of_filling hb hx hst) (by rw [hsame]; rfl)
      (by rw [hsame]; rfl) (by rw [hsame]; rfl) (by rw [hsame]; rfl) (by rw [hsame]; rfl) hc]
    exact (Fabric.rests_iff.mp hr).2.1 i
  obtain ⟨-, hq⟩ := State.boundary_quiet hr he ho hg (.inr hrest)
  generalize s.boundary p none = t at *
  rw [hq, hsame]
  exact ⟨rfl, hbuf, rfl, rfl, rfl, rfl, rfl⟩

variable (hl : ListsSafe (s.surf i))
include hl

/-- An untouched fill, and any fill with close on boundary off, goes on (R120). -/
theorem State.boundary_goesOn (hoff : (s.surf i).desc.flags.getLsbD 1 = false ∨ r.touched = false) :
    ((s.boundary p none).surf i).closePending = (s.surf i).closePending ∧ ((s.boundary p none).surf i).bufs[b]? = some r ∧
      ((s.boundary p none).surf i).head = (s.surf i).head ∧ ((s.boundary p none).surf i).lane = (s.surf i).lane ∧
      ((s.boundary p none).surf i).latch = (s.surf i).latch ∧ ((s.boundary p none).surf i).slot = (s.surf i).slot ∧
      ((s.boundary p none).surf i).frameCounter = (s.surf i).frameCounter := by
  have hrule := Fabric.boundaryRule_of_moving (env := (s.counted p).env) (n := (s.pipes.get p).counter + 1) hb.2.1
    (Surface.head_of_filling hb hx hst)
  obtain ⟨h1, h2, h3, -, h5⟩ := State.flipped_fill p hl hb hx hst
  generalize (s.fab.modSurf i Surface.aged).flipSelect (s.counted p).env i ((s.pipes.get p).counter + 1) = g at *
  rw [Fabric.closeOnBoundary_of_off] at hrule
  · exact State.boundary_fill hr he ho hb hx hst hrule h1 h2 h5
  · refine hoff.imp (fun h => by rw [h1]; exact h) fun h c hc => ?_
    rw [Surface.filling_eq_of h3.1 h2 hst] at hc
    obtain rfl := Option.some.inj hc
    rw [Surface.buf_of_some h2, h]

/-- Behind a bound head a touched fill is left close pending (R95, R120). -/
theorem State.boundary_pends (hon : (s.surf i).desc.flags.getLsbD 1 = true) (ht : r.touched = true) {bd : Binding}
    (hh : (s.surf i).head = .bound bd) :
    ((s.boundary p none).surf i).closePending = true ∧ ((s.boundary p none).surf i).bufs[b]? = some r ∧
      ((s.boundary p none).surf i).head = (s.surf i).head ∧ ((s.boundary p none).surf i).lane = (s.surf i).lane ∧
      ((s.boundary p none).surf i).latch = (s.surf i).latch ∧ ((s.boundary p none).surf i).slot = (s.surf i).slot ∧
      ((s.boundary p none).surf i).frameCounter = (s.surf i).frameCounter := by
  have hrule := Fabric.boundaryRule_of_moving (env := (s.counted p).env) (n := (s.pipes.get p).counter + 1) hb.2.1
    (Surface.head_of_filling hb hx hst)
  obtain ⟨h1, h2, h3, -, h5⟩ := State.flipped_fill p hl hb hx hst
  generalize (s.fab.modSurf i Surface.aged).flipSelect (s.counted p).env i ((s.pipes.get p).counter + 1) = g at *
  have hclose : g.closeOnBoundary (s.counted p).env i = g.modSurf i (fun su => { su with closePending := true }) := by
    have hbound : (g.surf i).headBound = true := by
      rw [h1]
      unfold Surface.headBound
      dsimp only
      rw [hh]
    rw [Fabric.closeOnBoundary_of_touched _ h3.1 h2 hst (by rw [h1]; exact hon) ht, if_pos hbound]
  rw [hclose] at hrule
  have hg : (g.modSurf i (fun su => { su with closePending := true })).surf i = { g.surf i with closePending := true } :=
    g.surf_modSurf_same i _
  refine State.boundary_fill hr he ho hb hx hst hrule ?_ (by rw [hg]; exact h2) h5
  rw [hg]
  unfold Surface.SameButShown at *
  rw [h1]

end

/-! ## Latches behind a head's decision -/

section
variable {s t t' : State} {i : Fin 8} {u : Surface}

theorem State.Opened.latched (ht : t'.surf i = (t.surf i).latchScanout) {c : Nat} (h : t.Opened i c) : t'.Opened i c := by
  unfold State.Opened at *
  rw [ht]
  exact h

theorem State.HeadDecided.latched (ht : t'.surf i = (t.surf i).latchScanout) {asks : Bool} (h : t.HeadDecided i u asks) :
    t'.HeadDecided i u asks := by
  obtain ⟨h1, h2, h3, h4⟩ := h
  refine ⟨fun c hc => (h1 c hc).latched ht, fun pre c post x hn hr hp hpre hx hh => ?_, fun hn hr => ?_, fun k x hx hst hk => ?_⟩
  · obtain ⟨hopen, hpres⟩ := h2 pre c post x hn hr hp hpre hx hh
    exact ⟨hopen.latched ht, by rw [ht]; exact hpres⟩
  · rw [ht]
    exact h3 hn hr
  · rw [ht] at hk ⊢
    exact h4 k x hx hst hk

theorem State.CopyDecided.latched (ht : t'.surf i = (t.surf i).latchScanout) (hc : t'.fab.copy = t.fab.copy)
    (he : t'.fab.events = t.fab.events) {b : Nat} {events : List EventRecord} (h : s.CopyDecided t i b events) :
    s.CopyDecided t' i b events := by
  unfold State.CopyDecided at *
  rw [ht, hc, he]
  exact h

end

/-! ## A flip while a head waits for a buffer -/

section
variable {s : State} {p : Fin 4} {i : Fin 8} (hr : s.AtRest) (he : (s.pipes.get p).enabled = true) (ho : s.fab.onPipe p = [i])
  (hb : BuffersSafe (s.surf i)) (hl : ListsSafe (s.surf i)) (hlane : (s.surf i).lane ≠ []) (hh : (s.surf i).head = .waiting)
  (hp : (s.surf i).closePending = false)
  (hm : ∀ x ∈ (s.surf i).bufs, x.st = .shown → (s.surf i).desc.minShow.toNat ≤ min 255 (x.age + 1))
  (hn : (s.surf i).agedWait.holdReached = false) {b : Nat} {skipped bs : List Nat} (hf : (s.surf i).Flips b skipped bs)
include hr he ho hb hl hlane hh hp hm hn hf

/-- The flip is as above an empty lane, and the head is decided again (R93, R116). -/
theorem State.boundary_decides {u : Surface} (hu : u.AsksAs ((s.surf i).agedWait.flipped b skipped bs) false) :
    (s.boundary p none).HeadDecided i u false ∧
    ((s.boundary p none).surf i).present = bs ∧
    ((s.surf i).desc.flags.getLsbD 2 = false → (s.boundary p none).fab.events = appendEvent
      (skipped.foldl (fun q k => appendEvent q ((s.surf i).shownRecord i s.timebase ((s.pipes.get p).counter + 1) .frameSkipped k))
        s.fab.events)
      ((s.surf i).shownRecord i s.timebase ((s.pipes.get p).counter + 1) .flip b)) := by
  have haged : (s.fab.modSurf i Surface.agedWait).surf i = (s.surf i).agedWait := s.fab.surf_modSurf_same i _
  have hcount : ((s.fab.modSurf i Surface.agedWait).surf i).countIn .shown ≤ 1 := by
    rw [haged, Surface.countIn_eq_states, Surface.agedWait_states, ← Surface.countIn_eq_states]
    exact hb.2.1
  have hmay : ((s.fab.modSurf i Surface.agedWait).surf i).mayFlip = true := by
    rw [haged]
    exact Surface.aged_mayFlip hb.2.1 hm
  have hflips : ((s.fab.modSurf i Surface.agedWait).surf i).Flips b skipped bs := by
    rw [haged]
    exact hf
  obtain ⟨h1, h2⟩ := Fabric.flipSelect_flips (s.counted p).env ((s.pipes.get p).counter + 1) hcount hmay hflips
  have hkeep := ((s.fab.modSurf i Surface.agedWait).keeps_flipSelect (s.counted p).env i ((s.pipes.get p).counter + 1)).surf i
  have hrule := Fabric.boundaryRule_of_counting (env := (s.counted p).env) (n := (s.pipes.get p).counter + 1) hb.2.1 hh hn
  have hsafe : BuffersSafe ((s.fab.modSurf i Surface.agedWait).surf i) := by
    rw [haged, buffersSafe_iff, Surface.agedWait_states]
    exact buffersSafe_iff.mp hb
  have hbs := hkeep.buffers hsafe
  rw [haged] at h1 h2
  have hev : (s.fab.modSurf i Surface.agedWait).events = s.fab.events := rfl
  rw [hev] at h2
  generalize (s.fab.modSurf i Surface.agedWait).flipSelect (s.counted p).env i ((s.pipes.get p).counter + 1) = g at *
  have hw : (g.surf i).head = .waiting := by
    rw [h1]
    exact hh
  have hfill : (g.surf i).filling = none := Surface.filling_of_waiting hbs hw
  rw [Fabric.closeOnBoundary_of_none hfill] at hrule
  have hat := State.boundary_alone hr he ho hrule
  have hfab : ({ s.counted p with fab := Fabric.runEngine 5 (Fabric.settleSurface (s.counted p).env g i) } : State).fab =
      Fabric.runEngine 5 (Fabric.settleSurface (s.counted p).env g i) := rfl
  generalize hF : ({ s.counted p with fab := Fabric.runEngine 5 (Fabric.settleSurface (s.counted p).env g i) } : State) = t0 at hfab
  have htsurf : (s.boundary p none).surf i = (t0.surf i).latchScanout := by
    rw [hat, State.surf, State.surf, hfab]
    exact Fabric.surf_modSurf_same _ i _
  have htev : (s.boundary p none).fab.events = t0.fab.events := by
    rw [hat, hfab]
    rfl
  clear hat hF
  generalize s.boundary p none = t at *
  have hlife : (g.surf i).life = .attached := by
    rw [h1]
    exact mem_onPipe ho
  have hq : (g.surf i).lane ≠ [] := by
    rw [h1]
    exact hlane
  have hpend : (g.surf i).closePending = false := by
    rw [h1]
    exact hp
  have hdecided := State.headDecided_of (i := i) (asks := false) rfl hfab (h1.symm ▸ hu) hlife hq hfill hpend hw
  have hpres := State.present_of_waiting (i := i) rfl hfab hlife hq hfill hpend hw
  have hquiet := State.quiet_of_waiting (i := i) rfl hfab hlife hq hfill hpend hw
  refine ⟨?_, ?_, fun hc => ?_⟩
  · exact hdecided.latched htsurf
  · rw [htsurf]
    exact hpres.trans (by rw [h1]; rfl)
  · rw [htev, (hquiet (by rw [h1]; exact hc)).2, h2]
    have hrecord : ∀ kind k, (s.surf i).agedWait.shownRecord i s.timebase ((s.pipes.get p).counter + 1) kind k =
        (s.surf i).shownRecord i s.timebase ((s.pipes.get p).counter + 1) kind k := fun kind k => by
      have hc : ((s.surf i).agedWait.buf k).content = ((s.surf i).buf k).content := (s.surf i).aged_content k
      unfold Surface.shownRecord
      rw [hc]
      rfl
    rw [← hrecord .flip b]
    exact congrArg (fun g => appendEvent (skipped.foldl g s.fab.events) _)
      (funext fun q => funext fun k => congrArg (appendEvent q) (hrecord .frameSkipped k))

end

end Sys2Proof.Machine

/-! # What a close leaves of the surface (R53, R69, R95 to R100) -/

namespace Sys2Proof.Machine

set_option Elab.async false

/-! ## Steps 1 to 3 of a close (R96 to R98) -/

/-- A record that is not the closed one: the wrap empties what it holds unless the frame is still in use (R97). -/
def BufRec.wrapped (x : BufRec) (counter : Nat) : BufRec :=
  { x with content := if counter = 0xFFFFFFFF ∧ (x.st = .free ∨ x.st = .shown ∨ x.st = .draining) then 0 else x.content }

theorem Surface.wrapSequences_bufs (su : Surface) : su.wrapSequences.bufs = su.bufs.map (fun x => x.wrapped su.frameCounter) := by
  unfold Surface.wrapSequences BufRec.wrapped
  split
  · next h =>
    refine List.map_congr_left fun x _ => ?_
    simp only [h, true_and]
    split <;> rfl
  · next h =>
    simp only [h, false_and, if_false]
    exact (List.map_id _).symm

theorem Surface.wrapSequences_history (su : Surface) :
    su.wrapSequences.history = if su.frameCounter = 0xFFFFFFFF then [] else su.history := by
  unfold Surface.wrapSequences
  split <;> rfl

/-- The surface as step 2 of a close finds it: the sequence has been taken (R97). -/
def Surface.sequenced (su : Surface) (b : Nat) : Surface :=
  { su.wrapSequences with frameCounter := nextSeq su.frameCounter }.modBuf b (fun r => { r with content := nextSeq su.frameCounter })

theorem Surface.sequenced_bufs (su : Surface) (b k : Nat) : (su.sequenced b).bufs[k]? = su.bufs[k]?.map (fun x =>
    if b = k then { x with content := nextSeq su.frameCounter } else x.wrapped su.frameCounter) := by
  unfold Surface.sequenced
  rw [Surface.bufs_modBuf]
  dsimp only
  rw [Surface.wrapSequences_bufs, List.getElem?_map]
  split <;> cases su.bufs[k]? <;> rfl

theorem Surface.closeSteps_bufs (su : Surface) (b k : Nat) : (su.closeSteps b).bufs[k]? = su.bufs[k]?.map (fun x =>
    if b = k then { x with content := nextSeq su.frameCounter, st := .closing } else x.wrapped su.frameCounter) := by
  have hseq : (su.closeSteps b).bufs[k]? = ((su.sequenced b).modBuf b (fun r => { r with st := .closing })).bufs[k]? := by
    unfold Surface.closeSteps
    dsimp only
    split <;> rfl
  rw [hseq, Surface.bufs_modBuf, Surface.sequenced_bufs]
  cases su.bufs[k]? with
  | none => exact ite_self _
  | some x =>
    by_cases hk : b = k
    · rw [if_pos hk, Option.map_some, Option.map_some, Option.map_some, if_pos hk, if_pos hk]
    · rw [if_neg hk, Option.map_some, Option.map_some, if_neg hk, if_neg hk]

theorem Surface.closeSteps_history (su : Surface) (b : Nat) : (su.closeSteps b).history =
    if su.desc.flags.getLsbD 2 = true then appendHistory (if su.frameCounter = 0xFFFFFFFF then [] else su.history)
        { seq := nextSeq su.frameCounter, stripes := (su.sequenced b).closingStripes b }
      else if su.frameCounter = 0xFFFFFFFF then [] else su.history := by
  have hd : (su.sequenced b).desc.carryForward = su.desc.flags.getLsbD 2 := by
    unfold Surface.sequenced
    rw [su.wrapSequences_rest.1]
    rfl
  have hh : (su.sequenced b).history = if su.frameCounter = 0xFFFFFFFF then [] else su.history := su.wrapSequences_history
  have hentry : ∀ v : Surface, ∀ e : HistoryEntry, (if v.desc.carryForward = true then
      ({ v with history := appendHistory v.history e } : Surface) else v).history =
      if v.desc.carryForward = true then appendHistory v.history e else v.history := fun v e => by split <;> rfl
  refine (hentry (su.sequenced b) { seq := nextSeq su.frameCounter, stripes := (su.sequenced b).closingStripes b }).trans ?_
  rw [hd, hh]

theorem stripeOfAddr_eq (d : Descriptor) (base addr : Nat) :
    stripeOfAddr d base addr = (addr - base) / (64 * d.pitch.toNat) / ((d.height.toNat + 31) / 32) := by
  rw [Nat.mul_comm]
  rfl

/-- The stripes handed over at a close (R53). -/
theorem Surface.mem_closingStripes {su : Surface} {b : Nat} {r : BufRec} (hx : su.bufs[b]? = some r) {x : Nat} :
    x ∈ (su.sequenced b).closingStripes b ↔ x ∈ r.written ∨
      (∃ q, su.slot = some q ∧
        x = (q.addr - (su.buf q.buf).base.toNat) / (64 * su.desc.pitch.toNat) / ((su.desc.height.toNat + 31) / 32)) ∨
      ∃ m ∈ su.merges, m.st ≠ .writing ∧
        x = (m.addr - (su.buf m.buf).base.toNat) / (64 * su.desc.pitch.toNat) / ((su.desc.height.toNat + 31) / 32) := by
  have hrest : (su.sequenced b).desc = su.desc ∧ (su.sequenced b).slot = su.slot ∧ (su.sequenced b).merges = su.merges := by
    unfold Surface.sequenced
    rw [su.wrapSequences_rest.1]
    exact ⟨rfl, rfl, rfl⟩
  have hbase : ∀ k, ((su.sequenced b).buf k).base = (su.buf k).base := by
    intro k
    unfold Surface.buf
    rw [List.getD_eq_getElem?_getD, List.getD_eq_getElem?_getD, Surface.sequenced_bufs]
    cases su.bufs[k]? with
    | none => rfl
    | some y =>
      rw [Option.map_some]
      split <;> rfl
  have hwritten : ((su.sequenced b).buf b).written = r.written := by
    have : (su.sequenced b).bufs[b]? = some { r with content := nextSeq su.frameCounter } := by
      rw [Surface.sequenced_bufs, hx, Option.map_some, if_pos rfl]
    rw [Surface.buf_of_some this]
  unfold Surface.closingStripes
  dsimp only
  rw [mem_addStripes, List.mem_append, hwritten, hrest.1, hrest.2.1, hrest.2.2]
  simp only [stripeOfAddr_eq, hbase]
  rw [or_comm]
  refine or_congr_right (or_congr ?_ ?_)
  · cases su.slot with
    | none => simp
    | some q => simp
  · simp only [List.mem_map, List.mem_filter, Merge.outstanding, decide_eq_true_eq]
    constructor
    · rintro ⟨m, ⟨hm, ho⟩, rfl⟩
      exact ⟨m, hm, ho, rfl⟩
    · rintro ⟨m, hm, ho, rfl⟩
      exact ⟨m, ⟨hm, ho⟩, rfl⟩

end Sys2Proof.Machine

/-! # A close and its test for READY (R67, R69, R96 to R100, R106) -/

namespace Sys2Proof.Machine

set_option Elab.async false

/-! ## The slot spills -/

/-- The merge count of a buffer when the slot has spilled (R69). -/
def Surface.spilledCount (su : Surface) (k : Nat) (x : BufRec) : Nat :=
  match su.slot with
  | some q => if q.buf = k then x.merges + 1 else x.merges
  | none => x.merges

/-- The merge that the slot becomes, if it holds a pixel (R67). -/
def Surface.spilledMerges (su : Surface) (id : Nat) : List Merge :=
  match su.slot with
  | some q => [q.spilled id]
  | none => []

theorem Fabric.spillSlot_eq (f : Fabric) (i : Fin 8) :
    (f.spillSlot i).surf i = { f.surf i with
      slot := none, merges := (f.surf i).merges ++ (f.surf i).spilledMerges f.nextMerge
      bufs := (f.surf i).bufs.mapIdx (fun k x => { x with merges := (f.surf i).spilledCount k x }) } ∧
      (f.spillSlot i).copy = f.copy ∧ (f.spillSlot i).events = f.events := by
  unfold Fabric.spillSlot Surface.spilledMerges Surface.spilledCount
  cases hs : (f.surf i).slot with
  | none =>
    dsimp only
    refine ⟨?_, rfl, rfl⟩
    rw [List.append_nil, ← hs, show (f.surf i).bufs.mapIdx (fun (_ : Nat) (x : BufRec) => x) = (f.surf i).bufs
      from List.ext_getElem (by simp) fun k _ _ => by simp]
  | some q =>
    dsimp only
    refine ⟨?_, rfl, rfl⟩
    rw [Fabric.surf_modSurf_same, Fabric.surf_createMerge]
    refine congrArg (fun l => ({ f.surf i with
      slot := none, merges := (f.surf i).merges ++ [q.spilled f.nextMerge], bufs := l } : Surface)) (List.ext_getElem? fun k => ?_)
    change (Surface.modBuf _ q.buf _).bufs[k]? = _
    rw [Surface.bufs_modBuf, List.getElem?_mapIdx]
    dsimp only
    cases (f.surf i).bufs[k]? with
    | none => exact ite_self _
    | some x =>
      rw [Option.map_some, Option.map_some]
      split <;> rfl

/-! ## What the close leaves before the tests -/

/-- A record after steps 1 to 3 of a close and the spill of the slot. -/
def Surface.closedRec (su : Surface) (b k : Nat) (x : BufRec) : BufRec :=
  { (if b = k then { x with content := nextSeq su.frameCounter, st := .closing } else x.wrapped su.frameCounter : BufRec) with
    merges := su.spilledCount k x }

section
variable (f : Fabric) (i : Fin 8) (b : Nat)

theorem Fabric.surf_closeSteps_spill :
    ((f.modSurf i (fun su => su.closeSteps b)).spillSlot i).surf i = { f.surf i with
      frameCounter := nextSeq (f.surf i).frameCounter, latch := none, slot := none, closePending := false
      head := (f.surf i).head.dropMapping, history := ((f.surf i).closeSteps b).history, closing := (f.surf i).closing ++ [b]
      merges := (f.surf i).merges ++ (f.surf i).spilledMerges f.nextMerge
      bufs := (f.surf i).bufs.mapIdx ((f.surf i).closedRec b) } ∧
      ((f.modSurf i (fun su => su.closeSteps b)).spillSlot i).copy = f.copy ∧
      ((f.modSurf i (fun su => su.closeSteps b)).spillSlot i).events = f.events := by
  obtain ⟨h1, h2, h3⟩ := (f.modSurf i (fun su => su.closeSteps b)).spillSlot_eq i
  refine ⟨?_, h2, h3⟩
  have hrest := ((f.surf i).closeSteps_rest b).1
  have hslot : ((f.surf i).closeSteps b).slot = (f.surf i).slot := by rw [hrest]
  have hmerges : ((f.surf i).closeSteps b).merges = (f.surf i).merges := by rw [hrest]
  have hspill : ((f.surf i).closeSteps b).spilledMerges f.nextMerge = (f.surf i).spilledMerges f.nextMerge := by
    unfold Surface.spilledMerges
    rw [hslot]
  have hbufs : ((f.surf i).closeSteps b).bufs.mapIdx (fun k x => { x with merges := ((f.surf i).closeSteps b).spilledCount k x }) =
      (f.surf i).bufs.mapIdx ((f.surf i).closedRec b) := by
    refine List.ext_getElem? fun k => ?_
    rw [List.getElem?_mapIdx, List.getElem?_mapIdx, Surface.closeSteps_bufs, Option.map_map]
    refine congrArg (fun g => Option.map g _) (funext fun x => ?_)
    have hcount : ∀ y : BufRec, y.merges = x.merges → ((f.surf i).closeSteps b).spilledCount k y = (f.surf i).spilledCount k x := by
      intro y hy
      unfold Surface.spilledCount
      rw [hslot, hy]
    rw [Function.comp_apply, hcount _ (by split <;> rfl)]
    rfl
  rw [h1, Fabric.surf_modSurf_same, hmerges, hbufs]
  change ({ (f.surf i).closeSteps b with
    slot := none, merges := (f.surf i).merges ++ ((f.surf i).closeSteps b).spilledMerges f.nextMerge
    bufs := (f.surf i).bufs.mapIdx ((f.surf i).closedRec b) } : Surface) = _
  rw [hspill]
  generalize hH : ((f.surf i).closeSteps b).history = H at *
  generalize ((f.surf i).closeSteps b).bufs = B at *
  rw [hrest]

/-! ## The tests -/

/-- A CLOSING buffer first in close order is tested, with the DRAINING ones (R99, R106). -/
theorem Fabric.bufferTests_one (env : Env) (hl : (f.surf i).life = .attached) (hc : (f.surf i).closing = [b]) :
    f.bufferTests env i = if (f.modSurf i Surface.released).readyTest i b = true then
      (f.modSurf i Surface.released).makeReady env i b else f.modSurf i Surface.released := by
  rw [f.bufferTests_attached env i hl, hc, Fabric.promoteReady]
  rfl

end

theorem Fabric.readyTest_iff {f : Fabric} {i : Fin 8} {b : Nat} {x : BufRec} (hx : (f.surf i).bufs[b]? = some x) :
    f.readyTest i b = true ↔ x.prodWrites = 0 ∧ x.merges = 0 ∧ x.copyWrites = 0 ∧ f.jobOf i b = none := by
  unfold Fabric.readyTest
  dsimp only
  rw [Surface.buf_of_some hx]
  simp only [Bool.and_eq_true, beq_iff_eq, Option.isNone_iff_eq_none, and_assoc]

/-! ## The close -/

/-- The records after a close and its tests, the closed one in the state that it is given. -/
def Surface.closedBufs (su : Surface) (b : Nat) (r : BufRec) (st : BufState) : List BufRec := su.bufs.mapIdx (fun k x =>
  if k = b then { r with content := nextSeq su.frameCounter, merges := su.spilledCount b r, st := st }
  else ({ x with merges := su.spilledCount k x, content := (x.wrapped su.frameCounter).content } : BufRec).tested)

theorem Surface.closedBufs_eq {su : Surface} {b : Nat} {r : BufRec} (hx : su.bufs[b]? = some r) (st : BufState) :
    (su.bufs.mapIdx (fun k x => (su.closedRec b k x).tested)).modify b (fun x => { x with st := st }) = su.closedBufs b r st := by
  refine List.ext_getElem? fun k => ?_
  change (Surface.modBuf { su with bufs := su.bufs.mapIdx (fun k x => (su.closedRec b k x).tested) } b _).bufs[k]? = _
  rw [Surface.bufs_modBuf, Surface.closedBufs, List.getElem?_mapIdx, List.getElem?_mapIdx]
  by_cases hk : b = k
  · subst hk
    rw [if_pos rfl, hx, Option.map_some, Option.map_some, Option.map_some, if_pos rfl, Surface.closedRec, if_pos rfl]
    rfl
  · rw [if_neg hk]
    refine congrArg (fun g => Option.map g _) (funext fun x => ?_)
    rw [if_neg (Ne.symm hk), Surface.closedRec, if_neg hk]
    rfl

/-- The closed buffer is CLOSING until its test. -/
theorem Surface.closedBufs_closing {su : Surface} {b : Nat} {r : BufRec} (hx : su.bufs[b]? = some r) :
    su.bufs.mapIdx (fun k x => (su.closedRec b k x).tested) = su.closedBufs b r .closing := by
  rw [← Surface.closedBufs_eq hx]
  refine List.ext_getElem? fun k => ?_
  change _ = (Surface.modBuf { su with bufs := su.bufs.mapIdx (fun k x => (su.closedRec b k x).tested) } b _).bufs[k]?
  rw [Surface.bufs_modBuf]
  split
  · next hk =>
    subst hk
    rw [List.getElem?_mapIdx, hx, Option.map_some, Option.map_some, Surface.closedRec, if_pos rfl]
    rfl
  · rfl

/-- R53, R69, R95 to R100: what a close leaves when no other buffer is CLOSING. -/
theorem State.closed_applyClose {s : State} {env : Env} (hnow : env.now = s.timebase) {i : Fin 8} {b : Nat} {r : BufRec}
    (hl : (s.surf i).life = .attached) (hc : (s.surf i).closing = []) (hx : (s.surf i).bufs[b]? = some r) :
    s.Closed i b r ((s.fab.applyClose env i b).surf i) (s.fab.applyClose env i b).events ∧
      (s.fab.applyClose env i b).copy = s.fab.copy := by
  have hsu : s.fab.surf i = s.surf i := rfl
  obtain ⟨h1, h2, h3⟩ := s.fab.surf_closeSteps_spill i b
  have happly : s.fab.applyClose env i b = ((s.fab.modSurf i (fun su => su.closeSteps b)).spillSlot i).bufferTests env i := rfl
  generalize (s.fab.modSurf i (fun su => su.closeSteps b)).spillSlot i = f at *
  rw [hsu, hc, List.nil_append] at h1
  rw [happly, f.bufferTests_one i b env (by rw [h1]; exact hl) (by rw [h1])]
  have hg : (f.modSurf i Surface.released).surf i = (f.surf i).released := f.surf_modSurf_same i _
  have hgc : (f.modSurf i Surface.released).copy = s.fab.copy := h2
  have hge : (f.modSurf i Surface.released).events = s.fab.events := h3
  have hgj : (f.modSurf i Surface.released).jobOf i b = s.fab.jobOf i b :=
    Fabric.jobOf_congr (by rw [hgc]) (by rw [hg, h1]; rfl) b
  generalize f.modSurf i Surface.released = g at *
  have hbuf : (g.surf i).bufs[b]? = some { r with
      content := nextSeq (s.surf i).frameCounter, st := .closing, merges := (s.surf i).spilledCount b r } := by
    rw [hg]
    refine (Surface.released_buf (x := (s.surf i).closedRec b b r) ?_).trans (congrArg some ?_)
    · rw [h1, List.getElem?_mapIdx, hx]
      rfl
    · unfold Surface.closedRec
      rw [if_pos rfl]
      rfl
  have htest := Fabric.readyTest_iff (f := g) (i := i) hbuf
  rw [hgj] at htest
  have hbufs : (g.surf i).bufs = (s.surf i).bufs.mapIdx (fun k x => ((s.surf i).closedRec b k x).tested) := by
    rw [hg, h1]
    refine List.ext_getElem? fun k => ?_
    rw [Surface.released, List.getElem?_map, List.getElem?_mapIdx, List.getElem?_mapIdx, Option.map_map]
    exact congrArg (fun g => Option.map g _) (funext fun x => BufRec.release_eq _)
  have hhist := (s.surf i).closeSteps_history b
  have hmem := fun x => (s.surf i).mem_closingStripes (x := x) hx
  have hsurf : g.surf i = { s.surf i with
      frameCounter := nextSeq (s.surf i).frameCounter, latch := none, slot := none, closePending := false
      head := (s.surf i).head.dropMapping, history := ((s.surf i).closeSteps b).history, closing := [b]
      merges := (s.surf i).merges ++ (s.surf i).spilledMerges s.fab.nextMerge
      bufs := (s.surf i).bufs.mapIdx (fun k x => ((s.surf i).closedRec b k x).tested) } := by
    rw [← hbufs, hg, h1]
    rfl
  clear hg h1 hbufs
  refine ⟨?_, by split <;> exact hgc⟩
  unfold State.Closed
  intro su wraps seq merges ready stripeAt older
  have hready : g.readyTest i b = true ↔ ready := htest
  have hhistory : (if su.desc.flags.getLsbD 2 = true then
      ∃ e : HistoryEntry, e.seq = seq ∧ (su.closeSteps b).history = (older ++ [e]).drop (older.length - 3) ∧
        ∀ x, x ∈ e.stripes ↔ x ∈ r.written ∨ (∃ q, su.slot = some q ∧ x = stripeAt q.buf q.addr) ∨
          ∃ m ∈ su.merges, m.st ≠ .writing ∧ x = stripeAt m.buf m.addr
      else (su.closeSteps b).history = older) := by
    rw [hhist]
    split
    · exact ⟨_, rfl, rfl, hmem⟩
    · rfl
  by_cases h : ready
  · rw [if_pos (hready.mpr h)]
    have hm := g.surf_makeReady env i b
    have hev := g.events_makeReady env i hbuf
    generalize g.makeReady env i b = m at *
    have hu : m.surf i = { g.surf i with
        closing := [], present := su.present ++ [b], bufs := su.closedBufs b r .ready } := by
      rw [hm, hsurf, ← Surface.closedBufs_eq hx, List.erase_cons_head]
      rfl
    refine ⟨?_, ?_, ?_⟩
    · rw [hu, hsurf, if_pos h, if_pos h, if_pos h]
      rfl
    · rw [hu, hsurf]
      exact hhistory
    · rw [hev, if_pos h, hge, hnow, hsurf]
      rfl
  · rw [if_neg (mt hready.mp h)]
    refine ⟨?_, ?_, ?_⟩
    · rw [hsurf, Surface.closedBufs_closing hx, if_neg h, if_neg h, if_neg h]
      rfl
    · rw [hsurf]
      exact hhistory
    · rw [if_neg h]
      exact hge

section
variable {s : State} {i : Fin 8} {b : Nat} {r : BufRec} {u : Surface} {events : List EventRecord} (h : s.Closed i b r u events)
include h

/-- What a close leaves of the lane and the fill. -/
theorem State.Closed.rest : u = { s.surf i with
    frameCounter := u.frameCounter, latch := none, slot := none, closePending := false, head := (s.surf i).head.dropMapping
    history := u.history, merges := u.merges, bufs := u.bufs, closing := u.closing, present := u.present } := by
  obtain ⟨h, -, -⟩ := h
  rw [h]
  rfl

theorem State.Closed.counter : u.frameCounter = nextSeq (s.surf i).frameCounter := congrArg Surface.frameCounter h.1

/-- With nothing in flight the closed buffer is READY at the tail of the present queue, and FRAME_READY is appended (R99, R100). -/
theorem State.Closed.of_ready (hready : r.prodWrites = 0 ∧ (s.surf i).spilledCount b r = 0 ∧ r.copyWrites = 0 ∧ s.fab.jobOf i b = none) :
    u.bufs = (s.surf i).closedBufs b r .ready ∧ u.present = (s.surf i).present ++ [b] ∧ events = appendEvent s.fab.events
      { kind := .frameReady, surface := BitVec.ofNat 8 i.val, pipe := (s.surf i).desc.pipe, buffer := BitVec.ofNat 8 b,
        seq := BitVec.ofNat 32 (nextSeq (s.surf i).frameCounter), detail := if r.damaged then 1 else 0, stamp := s.timebase } := by
  obtain ⟨h1, -, h3⟩ := h
  exact ⟨(congrArg Surface.bufs h1).trans (congrArg ((s.surf i).closedBufs b r) (if_pos hready)),
    (congrArg Surface.present h1).trans (if_pos hready), h3.trans (if_pos hready)⟩

/-- Otherwise it is CLOSING, without a record. -/
theorem State.Closed.of_notReady
    (hready : ¬ (r.prodWrites = 0 ∧ (s.surf i).spilledCount b r = 0 ∧ r.copyWrites = 0 ∧ s.fab.jobOf i b = none)) :
    u.bufs = (s.surf i).closedBufs b r .closing ∧ u.present = (s.surf i).present ∧ events = s.fab.events := by
  obtain ⟨h1, -, h3⟩ := h
  exact ⟨(congrArg Surface.bufs h1).trans (congrArg ((s.surf i).closedBufs b r) (if_neg hready)),
    (congrArg Surface.present h1).trans (if_neg hready), h3.trans (if_neg hready)⟩

theorem State.Closed.bufs_eq : ∃ st, (st = .ready ∨ st = .closing) ∧ u.bufs = (s.surf i).closedBufs b r st := by
  by_cases hready : r.prodWrites = 0 ∧ (s.surf i).spilledCount b r = 0 ∧ r.copyWrites = 0 ∧ s.fab.jobOf i b = none
  · exact ⟨_, .inl rfl, (h.of_ready hready).1⟩
  · exact ⟨_, .inr rfl, (h.of_notReady hready).1⟩

/-- The latches that follow a boundary's close. -/
theorem State.Closed.latched {s' : State} (hs : s'.surf i = (s.surf i).latchScanout) (hj : s'.fab.jobOf i b = s.fab.jobOf i b)
    (he : s'.fab.events = s.fab.events) (hm : s'.fab.nextMerge = s.fab.nextMerge) (ht : s'.timebase = s.timebase) :
    s'.Closed i b r u.latchScanout events := by
  unfold State.Closed at *
  rw [hs, hj, he, hm, ht]
  obtain ⟨h1, h2, h3⟩ := h
  exact ⟨congrArg Surface.latchScanout h1, h2, h3⟩

end

end Sys2Proof.Machine

/-! # Close on boundary (R95 to R100, R116, R120) -/

namespace Sys2Proof.Machine

set_option Elab.async false

/-! ## A touched fill above an empty lane -/

section
variable {s : State} {p : Fin 4} {i : Fin 8} (hr : s.AtRest) (he : (s.pipes.get p).enabled = true) (ho : s.fab.onPipe p = [i])
  (hb : BuffersSafe (s.surf i)) (hl : ListsSafe (s.surf i)) {b : Nat} {r : BufRec} (hx : (s.surf i).bufs[b]? = some r)
  (hst : r.st = .filling) (hon : (s.surf i).desc.flags.getLsbD 1 = true) (ht : r.touched = true)
include hr he ho hb hl hx hst hon ht

theorem State.boundary_closesIdle (hlane : (s.surf i).lane = []) (hh : (s.surf i).head = .fresh) (hc : (s.surf i).closing = []) :
    let seq := nextSeq (s.surf i).frameCounter
    ∃ r', ((s.boundary p none).surf i).bufs[b]? = some r' ∧ r'.content = seq ∧
      ((s.boundary p none).surf i).frameCounter = seq ∧ ((s.boundary p none).surf i).latch = none ∧
      ((s.boundary p none).surf i).slot = none ∧ ((s.boundary p none).surf i).closePending = false ∧
      (if r.prodWrites = 0 ∧ r'.merges = 0 ∧ r.copyWrites = 0 ∧ s.fab.jobOf i b = none then
        r'.st = .ready ∧ ((s.boundary p none).surf i).present.getLast? = some b ∧
          ((s.surf i).present = [] → (s.boundary p none).fab.events = appendEvent s.fab.events
            { kind := .frameReady, surface := BitVec.ofNat 8 i.val, pipe := (s.surf i).desc.pipe, buffer := BitVec.ofNat 8 b,
              seq := BitVec.ofNat 32 seq, detail := if r.damaged then 1 else 0, stamp := s.timebase })
      else r'.st = .closing ∧ b ∉ ((s.boundary p none).surf i).present ∧
        ((s.surf i).present = [] → (s.boundary p none).fab.events = s.fab.events)) := by
  have haged : (s.fab.modSurf i Surface.aged).surf i = (s.surf i).aged := s.fab.surf_modSurf_same i _
  have hrule := Fabric.boundaryRule_of_moving (env := (s.counted p).env) (n := (s.pipes.get p).counter + 1) hb.2.1
    (Surface.head_of_filling hb hx hst)
  obtain ⟨h1, h2, h3, h4, h5⟩ := State.flipped_fill p hl hb hx hst
  have hquiet : (s.surf i).present = [] → ((s.fab.modSurf i Surface.aged).flipSelect (s.counted p).env i
      ((s.pipes.get p).counter + 1)).events = s.fab.events := fun hp => by
    rw [Fabric.flipSelect_still _ _ (.inl (by rw [haged]; exact hp))]
    rfl
  generalize (s.fab.modSurf i Surface.aged).flipSelect (s.counted p).env i ((s.pipes.get p).counter + 1) = g at *
  obtain ⟨w, rfl, hw⟩ : ∃ w : State, w.fab = g ∧ w.timebase = s.timebase := ⟨{ s.counted p with fab := g }, rfl, rfl⟩
  rw [show w.fab.surf i = w.surf i from rfl] at *
  unfold Surface.SameButShown at h1
  have hbound : ¬ (w.surf i).headBound = true := by
    rw [h1]
    unfold Surface.headBound
    dsimp only
    rw [hh]
    decide
  rw [Fabric.closeOnBoundary_of_touched _ h3.1 h2 hst (by rw [show w.fab.surf i = w.surf i from rfl, h1]; exact hon) ht] at hrule
  rw [show w.fab.surf i = w.surf i from rfl, if_neg hbound] at hrule
  obtain ⟨hclosed, -⟩ := State.closed_applyClose (env := (s.counted p).env) (i := i) hw.symm
    (by rw [h1]; exact mem_onPipe ho) (by rw [h1]; exact hc) h2
  have hq := State.boundary_quiet hr he ho hrule (.inl (by rw [hclosed.rest, h1]; exact hlane))
  have hjob : w.fab.jobOf i b = s.fab.jobOf i b :=
    Fabric.jobOf_congr (by rw [h5]) (by rw [show w.fab.surf i = w.surf i from rfl, h1]; rfl) b
  have hp : b ∉ (w.surf i).present := fun hm => by
    have := (listsSafe_iff.mp h4).2.2.1 b hm
    rw [Surface.states_getElem?, h2, Option.map_some, hst] at this
    cases this
  generalize w.fab.applyClose (s.counted p).env i b = G at *
  generalize s.boundary p none = t at *
  obtain ⟨hev, hts⟩ := hq
  have hcounter : (w.surf i).frameCounter = (s.surf i).frameCounter := by rw [h1]
  have hdesc : (w.surf i).desc = (s.surf i).desc := by rw [h1]
  have hrest := hclosed.rest
  have hfields : (t.surf i).frameCounter = nextSeq (s.surf i).frameCounter ∧ (t.surf i).latch = none ∧ (t.surf i).slot = none ∧
      (t.surf i).closePending = false := by
    rw [hts]
    refine ⟨hclosed.counter.trans (congrArg nextSeq hcounter), ?_, ?_, ?_⟩
    · change (G.surf i).latch = none
      rw [hrest]
    · change (G.surf i).slot = none
      rw [hrest]
    · change (G.surf i).closePending = false
      rw [hrest]
  have hbufs : (t.surf i).bufs = (G.surf i).bufs := by
    rw [hts]
    rfl
  have hpresent : (t.surf i).present = (G.surf i).present := by
    rw [hts]
    rfl
  have hrec : ∀ st, ((w.surf i).closedBufs b r st)[b]? = some { r with
      content := nextSeq (s.surf i).frameCounter, merges := (w.surf i).spilledCount b r, st := st } := fun st => by
    rw [Surface.closedBufs, List.getElem?_mapIdx, h2, Option.map_some, if_pos rfl, hcounter]
  obtain ⟨f1, f2, f3, f4⟩ := hfields
  by_cases hready : r.prodWrites = 0 ∧ (w.surf i).spilledCount b r = 0 ∧ r.copyWrites = 0 ∧ w.fab.jobOf i b = none
  · obtain ⟨c1, c2, c3⟩ := hclosed.of_ready hready
    refine ⟨_, (congrArg (fun l : List BufRec => l[b]?) (hbufs.trans c1)).trans (hrec .ready), rfl, f1, f2, f3, f4, ?_⟩
    rw [if_pos (by rw [← hjob]; exact hready)]
    refine ⟨rfl, ?_, fun hp => ?_⟩
    · rw [hpresent, c2, List.getLast?_concat]
    · rw [hev, c3, hquiet hp, hcounter, hdesc, hw]
  · obtain ⟨c1, c2, c3⟩ := hclosed.of_notReady hready
    refine ⟨_, (congrArg (fun l : List BufRec => l[b]?) (hbufs.trans c1)).trans (hrec .closing), rfl, f1, f2, f3, f4, ?_⟩
    rw [if_neg (by rw [← hjob]; exact hready)]
    refine ⟨rfl, ?_, fun hp => ?_⟩
    · rw [hpresent, c2]
      exact hp
    · rw [hev, c3, hquiet hp]

end

end Sys2Proof.Machine

/-! # A head that asks anew behind a boundary's close (R89 to R95, R116) -/

namespace Sys2Proof.Machine

set_option Elab.async false

/-- An engine at rest rests on where no more of its jobs are startable. -/
theorem Fabric.engineRests_of_fewer {f g : Fabric} (hc : g.copy = f.copy) (hs : ∀ j ∈ f.copy.queue, g.startable j = true → f.startable j = true)
    (h : f.engineRests = true) : g.engineRests = true := by
  unfold Fabric.engineRests at *
  rw [hc]
  cases hcur : f.copy.current with
  | some c =>
    rw [hcur] at h
    exact h
  | none =>
    rw [hcur] at h
    dsimp only at h ⊢
    rw [List.all_eq_true] at h ⊢
    intro j hj
    have := h j hj
    rw [Bool.not_eq_true', Bool.and_eq_false_iff] at this ⊢
    exact this.imp_left fun h => Bool.eq_false_iff.mpr fun hg => Bool.eq_false_iff.mp h (hs j hj hg)

/-- The states of the records that a close has not closed: the tests let a DRAINING one go. -/
theorem Surface.closedBufs_other {su : Surface} {b k : Nat} (r : BufRec) (st : BufState) (hk : k ≠ b) {x : BufRec}
    (hx : su.bufs[k]? = some x) :
    ∃ y, (su.closedBufs b r st)[k]? = some y ∧ (y.st = x.st ∨ x.st = .draining ∧ y.st = .free) := by
  rw [Surface.closedBufs, List.getElem?_mapIdx, hx, Option.map_some, if_neg hk]
  refine ⟨_, rfl, ?_⟩
  unfold BufRec.tested
  split
  · next hd =>
    rcases BufRec.unused_ne { x with merges := su.spilledCount k x, content := (x.wrapped su.frameCounter).content } with h | h
    · exact .inr ⟨hd, h⟩
    · exact .inl (h.trans hd.symm)
  · exact .inl rfl

theorem Surface.closedBufs_filling {su : Surface} {b : Nat} {r : BufRec} (hc : su.countIn .filling ≤ 1) (hx : su.bufs[b]? = some r)
    (hst : r.st = .filling) {st : BufState} (hs : st ≠ .filling) : ∀ y ∈ su.closedBufs b r st, y.st ≠ .filling := by
  intro y hy hyst
  obtain ⟨k, hk⟩ := List.mem_iff_getElem?.mp hy
  by_cases hkb : k = b
  · rw [Surface.closedBufs, List.getElem?_mapIdx, hkb, hx, Option.map_some, if_pos rfl] at hk
    obtain rfl := Option.some.inj hk
    exact hs hyst
  · cases hkx : su.bufs[k]? with
    | none =>
      rw [Surface.closedBufs, List.getElem?_mapIdx, hkx] at hk
      cases hk
    | some x =>
      obtain ⟨y', hy', h | ⟨-, h⟩⟩ := Surface.closedBufs_other r st hkb hkx
      · obtain rfl := Option.some.inj (hk.symm.trans hy')
        exact hkb (Surface.unique_of_countIn hc hkx hx (h.symm.trans hyst) hst)
      · obtain rfl := Option.some.inj (hk.symm.trans hy')
        rw [hyst] at h
        cases h

section
variable {s t0 t : State} {g : Fabric} {env : Env} {i : Fin 8}
  (ht0 : t0.fab = Fabric.runEngine 5 (Fabric.settleSurface env g i)) (hts : t.surf i = (t0.surf i).latchScanout)
  (hcopy : t.fab.copy = t0.fab.copy) (hev : t.fab.events = t0.fab.events) (hnow : env.now = s.timebase)
  (hgc : g.copy = s.fab.copy) (hrest : g.engineRests = true) (hlife : (g.surf i).life = .attached) (hlane : (g.surf i).lane ≠ [])
  (hfill : (g.surf i).filling = none) (hpend : (g.surf i).closePending = false) (hh : (g.surf i).head = .fresh)
  (hlists : ListsSafe (g.surf i))
include ht0 hts hcopy hev hnow hgc hrest hlife hlane hfill hpend hh hlists

/-- What follows a close whose head asks anew, with the latches of the boundary. -/
theorem State.afterClose_latched : s.AfterClose t i (g.surf i).latchScanout g.events := by
  have hasked : (s.modSurf i (fun _ => (g.surf i).latchScanout)).surf i = (g.surf i).latchScanout := s.surf_modSurf_same i _
  have hopens : (s.modSurf i (fun _ => (g.surf i).latchScanout)).OpensFrom g i := by
    refine ⟨hgc, ?_, ?_, ?_, ?_, ?_⟩ <;> rw [hasked] <;> rfl
  have hasks : Surface.AsksAs (g.surf i).latchScanout (g.surf i) true := { bufs := fun k x hx => ⟨x, hx, rfl, rfl, .inl rfl⟩ }
  have hdecided := State.headDecided_of (i := i) (asks := true) rfl ht0 hasks hlife hlane hfill hpend hh
  have hnone : (∀ x ∈ (g.surf i).bufs, x.st ≠ .free) → (g.surf i).chooseFree = none := Surface.chooseFree_none.mpr
  have hroam := Fabric.settleSurface_roams env (f := g) (i := i)
    ⟨⟨hpend, fun m hm => by rw [hh] at hm; cases hm⟩, fun hw => by rw [hh] at hw; cases hw⟩
  have hsurf := State.surf_of_engine ht0 i
  unfold State.AfterClose
  refine ⟨?_, fun h => absurd h hlane, fun _ => ⟨hdecided.latched hts, fun c hc => ?_, fun hn hflag pre c post x hp hpre hx hhold => ?_,
    fun hn hnorec => ?_⟩⟩
  · rw [hts]
    change (g.surf i).merges.map Merge.unstamped <+: (t0.surf i).merges.map Merge.unstamped
    rw [hsurf]
    exact hroam.merges
  · have hfree : (g.surf i).chooseFree = some c := (hasks.firstChoice hc).chooseFree
    exact (State.copyDecided_of_free ht0 hopens hrest hnow hlife hlane hfill hpend (.inl hh) hfree).latched hts hcopy hev
  · have hcand : (g.surf i).reclaimable = some c :=
      Surface.reclaimable_of_split hp hpre ((congrArg BufRec.hold (Surface.buf_of_some hx)).trans hhold)
    have hst : x.st ≠ .closing := by
      have := (listsSafe_iff.mp hlists).2.2.1 c (Surface.reclaimable_mem hcand)
      rw [Surface.states_getElem?, show (g.surf i).bufs[c]? = some x from hx] at this
      rw [show x.st = .ready from Option.some.inj this]
      nofun
    have hcd := State.copyDecided_of_reclaimed ht0 hopens hrest hnow hlife hlane hfill hpend (.inl hh) hh (hnone hn) hflag hcand hx hst
    rw [Fabric.events_dropReady g env i (show (g.surf i).bufs[c]? = some x from hx), hnow] at hcd
    exact hcd.latched hts hcopy hev
  · obtain ⟨q, qs, hqs⟩ := List.exists_cons_of_ne_nil hlane
    have hwait := Fabric.settleSurface_waits env hlife hqs hfill (.inl hh) (hnone hn)
      fun _ hflag => Surface.reclaimable_eq_none (hnorec hflag)
    rw [hev, ht0, (Fabric.sameButJobs_runEngine 5 _).rest, hwait]
    exact ((g.modSurf i _).presentMerge_spec i).2.1

end

/-! ## The close -/

section
variable {s : State} {p : Fin 4} {i : Fin 8} (hr : s.AtRest) (he : (s.pipes.get p).enabled = true) (ho : s.fab.onPipe p = [i])
  (hb : BuffersSafe (s.surf i)) (hl : ListsSafe (s.surf i)) {b : Nat} {r : BufRec} (hx : (s.surf i).bufs[b]? = some r)
  (hst : r.st = .filling) (hon : (s.surf i).desc.flags.getLsbD 1 = true) (ht : r.touched = true)
include hr he ho hb hl hx hst hon ht

/-- Behind a mapped head, with no flip, the close applies at once to the aged surface, and the head asks anew (R95, R120). -/
theorem State.boundary_closesMapped (hlane : (s.surf i).lane ≠ []) {m : Mapping} (hh : (s.surf i).head = .mapped m)
    (hc : (s.surf i).closing = []) (hn : (s.surf i).present = [] ∨ (s.surf i).aged.mayFlip = false) :
    ∃ u events, (s.modSurf i (fun _ => (s.surf i).aged.latchScanout)).Closed i b r u events ∧
      (s.modSurf i (fun _ => (s.surf i).aged.latchScanout)).AfterClose (s.boundary p none) i u events := by
  have haged : (s.fab.modSurf i Surface.aged).surf i = (s.surf i).aged := s.fab.surf_modSurf_same i _
  have hrule := Fabric.boundaryRule_of_moving (env := (s.counted p).env) (n := (s.pipes.get p).counter + 1) hb.2.1
    (Surface.head_of_filling hb hx hst)
  rw [Fabric.flipSelect_still _ _ (by rw [haged]; exact hn)] at hrule
  have hxa : (s.surf i).aged.bufs[b]? = some r := by
    rw [Surface.aged, List.getElem?_map, hx, Option.map_some, if_neg (by rw [hst]; nofun)]
  have hbound : ¬ (s.surf i).aged.headBound = true := by
    unfold Surface.headBound Surface.aged
    dsimp only
    rw [hh]
    exact Bool.false_ne_true
  rw [Fabric.closeOnBoundary_of_touched _ (by rw [haged, Surface.aged_countIn]; exact hb.1) (by rw [haged]; exact hxa) hst
    (by rw [haged]; exact hon) ht, haged, if_neg hbound] at hrule
  obtain ⟨w, hwf, hwt⟩ : ∃ w : State, w.fab = s.fab.modSurf i Surface.aged ∧ w.timebase = s.timebase :=
    ⟨{ s with fab := s.fab.modSurf i Surface.aged }, rfl, rfl⟩
  have hws : w.surf i = (s.surf i).aged := by rw [State.surf, hwf, haged]
  rw [← hwf] at hrule
  obtain ⟨hclosed, hcopy⟩ := State.closed_applyClose (env := (s.counted p).env) (i := i) hwt.symm
    (by rw [hws]; exact mem_onPipe ho) (by rw [hws]; exact hc) (b := b) (r := r) (by rw [hws]; exact hxa)
  have hlists : ListsSafe ((w.fab.applyClose (s.counted p).env i b).surf i) := by
    rw [← hrule]
    exact ((s.fab.keeps_boundaryRule (s.counted p).env i ((s.pipes.get p).counter + 1)).surf i).lists hl
  have hat := State.boundary_alone hr he ho hrule
  generalize w.fab.applyClose (s.counted p).env i b = G at *
  have hrest := hclosed.rest
  rw [hws] at hrest
  obtain ⟨st, hstc, hbufs⟩ := hclosed.bufs_eq
  rw [hws] at hbufs
  have hwj : w.fab.jobOf i b = s.fab.jobOf i b := by
    rw [hwf]
    exact s.fab.jobOf_modSurf i i b rfl
  refine ⟨(G.surf i).latchScanout, G.events, hclosed.latched ?_ ?_ ?_ ?_ ?_, ?_⟩
  · rw [hws]
    exact s.surf_modSurf_same i _
  · rw [hwj]
    exact s.fab.jobOf_modSurf i i b rfl
  · rw [hwf]
    rfl
  · rw [hwf]
    rfl
  · exact hwt.symm
  · obtain ⟨t0, ht0, hts, htc, hte⟩ : ∃ t0 : State, t0.fab = Fabric.runEngine 5 (Fabric.settleSurface (s.counted p).env G i) ∧
        (s.boundary p none).surf i = (t0.surf i).latchScanout ∧ (s.boundary p none).fab.copy = t0.fab.copy ∧
        (s.boundary p none).fab.events = t0.fab.events := by
      refine ⟨{ s with fab := Fabric.runEngine 5 (Fabric.settleSurface (s.counted p).env G i) }, rfl, ?_, ?_, ?_⟩
      · rw [hat]
        exact Fabric.surf_modSurf_same _ i _
      · rw [hat]
        rfl
      · rw [hat]
        rfl
    clear hat
    generalize s.boundary p none = t at *
    refine State.afterClose_latched ht0 hts htc hte rfl (hcopy.trans (by rw [hwf]; rfl)) ?_ (by rw [hrest]; exact mem_onPipe ho)
      (by rw [hrest]; exact hlane) ?_ (by rw [hrest]) ?_ hlists
    · refine Fabric.engineRests_of_fewer (f := s.fab) (hcopy.trans (by rw [hwf]; rfl)) (fun j _ hj => ?_) (Fabric.rests_iff.mp hr).2.2.2
      by_cases hk : j.surface = i
      · unfold Fabric.startable at *
        rw [hk, Surface.st_buf, decide_eq_true_eq] at hj ⊢
        intro hcl
        refine hj ?_
        rw [← Surface.aged_states, Surface.states_getElem?] at hcl
        cases hkx : (s.surf i).aged.bufs[j.source]? with
        | none =>
          rw [show (s.fab.surf i).aged.bufs[j.source]? = none from hkx] at hcl
          cases hcl
        | some x =>
          rw [show (s.fab.surf i).aged.bufs[j.source]? = some x from hkx] at hcl
          have hxcl : x.st = .closing := hcl
          have hne : j.source ≠ b := fun e => by
            rw [e, hxa] at hkx
            obtain rfl := Option.some.inj hkx
            rw [hst] at hxcl
            cases hxcl
          obtain ⟨y, hy, h | ⟨h, -⟩⟩ := Surface.closedBufs_other r st hne hkx
          · rw [Surface.states_getElem?, hbufs, hy]
            exact h.trans hxcl
          · rw [hxcl] at h
            cases h
      · have hbes := (s.fab.beside_boundaryRule i (s.counted p).env ((s.pipes.get p).counter + 1)).surf j.surface hk
        rw [hrule] at hbes
        unfold Fabric.startable at *
        rw [← hbes]
        exact hj
    · refine Surface.filling_none.mpr ?_
      rw [hbufs]
      refine Surface.closedBufs_filling (by rw [Surface.aged_countIn]; exact hb.1) hxa hst ?_
      rcases hstc with h | h <;> rw [h] <;> nofun
    · rw [hrest]
      change (s.surf i).head.dropMapping = _
      rw [hh]
      rfl

end

end Sys2Proof.Machine

/-! # A boundary flips, serves a waiting head, and closes a touched fill (R116 to R122) -/

namespace Sys2Proof.Machine

set_option Elab.async false

theorem Surface.agedWait_reached {su : Surface} (h : su.desc.holdLimit.toNat = 0 ∨ min 15 (su.holdWait + 1) < su.desc.holdLimit.toNat) :
    su.agedWait.holdReached = false := by
  unfold Surface.agedWait
  dsimp only
  rw [Bool.and_eq_false_iff, decide_eq_false_iff_not, decide_eq_false_iff_not]
  refine h.imp (fun h => not_not_intro (BitVec.eq_of_toNat_eq h)) Nat.not_le.mpr

/-- READY buffers are not SHOWN, and those passed over are not the one flipped in. -/
theorem Surface.Flips.ready {su : Surface} (hl : ListsSafe su) {b : Nat} {skipped bs : List Nat} (h : su.Flips b skipped bs) :
    su.states[b]? = some .ready ∧ ∀ k ∈ skipped, k ≠ b := by
  obtain ⟨hn, -, hr, -⟩ := listsSafe_iff.mp hl
  rcases h with ⟨-, hp, rfl⟩ | ⟨-, hp, -⟩
  · exact ⟨hr b (by rw [hp]; exact List.mem_cons_self), nofun⟩
  · refine ⟨hr b (by rw [hp]; simp), fun k hk he => ?_⟩
    rw [hp, List.nodup_append] at hn
    exact hn.2.2 k hk b List.mem_cons_self he

/-- The ages and the hold limit's test aside, a waiting head finds the surface after a flip. -/
theorem Surface.asksAs_flipped (su : Surface) (b : Nat) (skipped bs : List Nat) : Surface.AsksAs { su with
    holdWait := min 15 (su.holdWait + 1), present := bs
    bufs := su.bufs.mapIdx (fun k x => if k = b then { x with st := .shown }
      else if x.st = .shown ∨ k ∈ skipped then { x with st := x.unused } else x) } (su.agedWait.flipped b skipped bs) false where
  length := by
    change (su.aged.bufs.mapIdx _).length = (su.bufs.mapIdx _).length
    rw [List.length_mapIdx, List.length_mapIdx, Surface.aged, List.length_map]
  bufs k y hy := by
    rw [List.getElem?_mapIdx] at hy
    obtain ⟨x, hx, rfl⟩ := Option.map_eq_some_iff.mp hy
    have haged : su.aged.bufs[k]? = some (if x.st = .shown then { x with age := min 255 (x.age + 1) } else x) := by
      rw [Surface.aged, List.getElem?_map, hx]
      rfl
    change ∃ y, (su.aged.bufs.mapIdx _)[k]? = some y ∧ _
    rw [List.getElem?_mapIdx, haged, Option.map_some]
    refine ⟨_, rfl, ?_⟩
    by_cases hk : k = b
    · rw [if_pos hk, if_pos hk]
      split <;> exact ⟨rfl, rfl, .inl rfl⟩
    · rw [if_neg hk, if_neg hk]
      by_cases hst : x.st = .shown
      · rw [if_pos hst, if_pos (.inl hst), if_pos (.inl hst)]
        exact ⟨rfl, rfl, .inl rfl⟩
      · rw [if_neg hst]
        exact ⟨rfl, rfl, .inl rfl⟩

/-- Settles O59. -/
theorem boundaryFlips : Obligations.BoundaryFlips := by
  intro s p i hr he ho hb su n record outOfUse mayFlip idle leaves
  have hs : (s.surf i).countIn .shown ≤ 1 := hb.2.1
  have hexec : exec (.boundary p none) s = .next (s.boundary p none) := rfl
  have hleaves : ∀ (b : Nat) (skipped bs : List Nat), ((s.boundary p none).surf i).bufs = (su.aged.flipped b skipped bs).bufs →
      ∀ k, k ≠ b → (k ∈ skipped ∨ ∃ x, su.bufs[k]? = some x ∧ x.st = .shown) → leaves (s.boundary p none) k := by
    intro b skipped bs hbufs k hk hout x hx
    obtain ⟨y, hy, hcont, -, hst⟩ := Surface.flipped_buf (b := b) (skipped := skipped) (bs := bs) hx
    refine ⟨y, by rw [hbufs]; exact hy, hcont, hst hk ?_⟩
    rcases hout with h | ⟨z, hz, hzs⟩
    · exact .inr h
    · obtain rfl := Option.some.inj (hx.symm.trans hz)
      exact .inl hzs
  refine ⟨fun b bs r hidle hd hoff hp hx hst hm => ?queue, fun b bs r hl hidle hd hoff hp hx hm => ?latest,
    fun b bs skipped hl hlane hw hpend hm hlim hf => ?waiting, fun k x hidle hoff hx hst hn => ?still, fun b r hl hx hst => ?close⟩
  case queue =>
    obtain ⟨h1, h2, h3⟩ := State.boundary_flips hr he ho hs hidle.1 (by rw [show (s.surf i).head = .fresh from hidle.2]; nofun) hoff hm
      (.inl ⟨by rw [show (s.surf i).desc.present = 0 from hd]; decide, hp, rfl⟩)
    obtain ⟨y, hy, hc, hown, -⟩ := Surface.flipped_buf (b := b) (skipped := []) (bs := bs) hx
    have hrb : (s.surf i).buf b = r := Surface.buf_of_some hx
    refine ⟨_, y, hexec, by rw [h1]; exact hy, (hown rfl).1, (hown rfl).2, hc, h2, fun k x hk hks => ?_, ?_⟩
    · refine hleaves b [] bs h1 k (fun e => ?_) (.inr ⟨x, hk, hks⟩)
      rw [e, hx] at hk
      obtain rfl := Option.some.inj hk
      rw [hst] at hks
      cases hks
    · rw [h3]
      unfold Surface.shownRecord
      rw [hrb]
      rfl
  case latest =>
    have hf : (s.surf i).Flips b bs [] := .inr ⟨hd, hp, rfl⟩
    obtain ⟨hready, hne⟩ := hf.ready hl
    obtain ⟨h1, h2, h3⟩ := State.boundary_flips hr he ho hs hidle.1 (by rw [show (s.surf i).head = .fresh from hidle.2]; nofun) hoff hm hf
    obtain ⟨y, hy, hc, hown, -⟩ := Surface.flipped_buf (b := b) (skipped := bs) (bs := []) hx
    have hrb : (s.surf i).buf b = r := Surface.buf_of_some hx
    refine ⟨_, y, hexec, by rw [h1]; exact hy, (hown rfl).1, (hown rfl).2, hc, h2,
      fun k hk => hleaves b bs [] h1 k (hne k hk) (.inl hk), fun k x hk hks => ?_, ?_⟩
    · refine hleaves b bs [] h1 k (fun e => ?_) (.inr ⟨x, hk, hks⟩)
      rw [e] at hk
      rw [Surface.states_getElem?, show (s.surf i).bufs[b]? = some x from hk, Option.map_some, hks] at hready
      cases hready
    · rw [h3]
      unfold Surface.shownRecord
      rw [hrb]
  case waiting =>
    have hf' : (s.surf i).Flips b skipped bs := by
      rcases hf with ⟨h1, h2, h3⟩ | h
      · exact .inl ⟨by rw [show (s.surf i).desc.present = 0 from h1]; decide, h2, h3⟩
      · exact .inr h
    intro u
    obtain ⟨h1, h2, h3⟩ := State.boundary_decides hr he ho hb hl hlane hw hpend hm (Surface.agedWait_reached hlim) hf' ((s.surf i).asksAs_flipped b skipped bs)
    exact ⟨_, hexec, h1, h2, h3⟩
  case still =>
    obtain ⟨h1, h2, h3⟩ := State.boundary_ages hr he ho hs hidle.1 (by rw [show (s.surf i).head = .fresh from hidle.2]; nofun) hoff
      (hn.imp_right (Surface.aged_mayFlip_false hs (List.mem_of_getElem? hx) hst))
    refine ⟨_, hexec, ?_, fun l hlk => ?_, h2, h3⟩
    · rw [h1, Surface.aged, List.getElem?_map, show (s.surf i).bufs[k]? = some x from hx, Option.map_some, if_pos hst]
    · rw [h1, Surface.aged, List.getElem?_map]
      cases hkl : (s.surf i).bufs[l]? with
      | none => rfl
      | some z =>
        rw [Option.map_some, if_neg fun e => hlk (Surface.unique_of_countIn hs hkl hx e hst)]
  case close =>
    refine ⟨fun hon ht hidle hc => ?_, fun hon ht hlane ⟨bd, hh⟩ => ?_, fun hon ht hlane ⟨m, hh⟩ hc hn => ?_, fun hoff => ?_⟩
    · obtain ⟨r', h1, h2⟩ := State.boundary_closesIdle hr he ho hb hl hx hst hon ht hidle.1 hidle.2 hc
      exact ⟨_, r', hexec, h1, h2⟩
    · obtain ⟨h1, h2, h3, h4, -, -, h7⟩ := State.boundary_pends hr he ho hb hx hst hl hon ht hh
      exact ⟨_, hexec, h1, h2, h3, h4, h7⟩
    · obtain ⟨u, events, h1, h2⟩ := State.boundary_closesMapped hr he ho hb hl hx hst hon ht hlane hh hc
        (hn.imp_right fun ⟨x, hx, hxs, hlt⟩ => Surface.aged_mayFlip_false hs hx hxs hlt)
      exact ⟨_, u, events, hexec, h1, h2⟩
    · exact ⟨_, hexec, State.boundary_goesOn hr he ho hb hx hst hl hoff⟩

end Sys2Proof.Machine
